-- ==== Sys2Proof/Word.lean ====
section
/-! DEFINITION. The words of the block: a byte, a 32-bit word of the hash core, a 12-bit address, a buffer of bytes (R8, R3, R140, R60). -/

namespace Sys2Proof

/-- A byte (R8): 8 bits, bit 0 the least significant. -/
abbrev Byte := BitVec 8

/-- A word of the hash core (R140): 32 bits, unsigned. -/
abbrev Word := BitVec 32

/-- A host address (R60, R70): 12 bits. -/
abbrev Addr := BitVec 12

/-- A buffer of `n` bytes (R20): byte `i` of the buffer is entry `i`. -/
abbrev Buf (n : Nat) := Vector Byte n

/-- `rep(b, n)` as a whole buffer (R8). -/
abbrev Buf.rep (n : Nat) (b : Byte) : Buf n := Vector.replicate n b

end Sys2Proof
end

