-- ==== Sys2Proof/Config.lean ====
section
/-! DEFINITION. The parameters of the block (R6, R7) and the one free value of the spec (R65). -/

namespace Sys2Proof.Config

/-- `BLOCK` (R6): pad width, padded-key width and hash input block, in bytes. -/
@[simp] abbrev block : Nat := 64

/-- `DLEN` (R6): digest and response width, in bytes. -/
@[simp] abbrev dlen : Nat := 32

/-- `HALF` (R6, C3): width of each KEK half, in bytes. -/
@[simp] abbrev half : Nat := 16

/-- `SEC_MAX` (R7): capacity of `SECRET`. -/
@[simp] abbrev secMax : Nat := 64

/-- `KEY_MAX` (R7, S3): capacity of `KEY`. Log 11 (DESIGN CHOICE: the spec's default, not an argument of the model). -/
@[simp] abbrev keyMax : Nat := 256

/-- `DATA_MAX` (R7, S3): capacity of `DATA`. Log 11. -/
@[simp] abbrev dataMax : Nat := 256

/-- `MSG_MAX` (R7, S3): capacity of `MSG`. Log 11. -/
@[simp] abbrev msgMax : Nat := 256

/-- `CHAL_MAX` (R7, S3): capacity of `CHAL`. Log 11. -/
@[simp] abbrev chalMax : Nat := 256

/-- The unspecified byte of a read made while `BUSY` = 1 (R65, S1), one for each such read: the step applies it to a
counter of State. It has no body, so nothing is known of its values. Log 5. -/
opaque freeByte : Nat → Byte

end Sys2Proof.Config
end

