-- ==== Sys2Proof/Syntax.lean ====
section
/-! DEFINITION. The commands (one constructor per row of spec/opcode_table.json), the names of the registers (R70), and the
notation for host programs (R101, R102). -/

namespace Sys2Proof

/-- The 17 commands (R94). No command has an operand (R93). -/
inductive Instr where
  /-- `NOP`, 0x00 (R110) -/
  | nop
  /-- `CLRCTX`, 0x01 (R111) -/
  | clrctx
  /-- `PADKEY`, 0x10 (R122) -/
  | padkey
  /-- `DERIVE`, 0x11 (R124) -/
  | derive
  /-- `XORPADS`, 0x12 (R126) -/
  | xorpads
  /-- `HASH`, 0x13 (R155) -/
  | hash
  /-- `HMAC`, 0x14 (R172) -/
  | hmac
  /-- `CIPHER`, 0x15 (R185) -/
  | cipher
  /-- `CIPHERI`, 0x16 (R186) -/
  | cipheri
  /-- `CIPHERO`, 0x17 (R187) -/
  | ciphero
  /-- `SETKEK1`, 0x20 (R202) -/
  | setkek1
  /-- `SETKEK2`, 0x21 (R203) -/
  | setkek2
  /-- `SETEIPAD`, 0x22 (R204) -/
  | seteipad
  /-- `SETEOPAD`, 0x23 (R205) -/
  | seteopad
  /-- `SETCHAL`, 0x24 (R206) -/
  | setchal
  /-- `SETRESP`, 0x25 (R207) -/
  | setresp
  /-- `VERIFY`, 0x2F (R210) -/
  | verify
deriving DecidableEq, Repr

/-- The named rows of the address map (R70). -/
inductive Reg where
  | cmd | status | errcode | missing | present | vstate | seclen
  | keylenLo | keylenHi | datalenLo | datalenHi | msglenLo | msglenHi | challenLo | challenHi
  | secret | pkey | ipad | opad | kpdiag | inner | digest
  | key | data | msg | chal
  | kekh1 | kekh2 | expresp | eipad | eopad
deriving DecidableEq, Repr

/-- The length registers that `WRLEN` names (R33, R34, R102). -/
inductive LenReg where
  | seclen | keylen | datalen | msglen | challen
deriving DecidableEq, Repr

/-- The address operand of `WR`, `RD` and `EXPECT` (R101): a 12-bit address, or `NAME+i`. -/
inductive HostAddr where
  | abs (a : Addr)
  | named (r : Reg) (i : Nat)
deriving DecidableEq, Repr

/-- What the host does at its port, one access at a time (R60, R101), and its polling (R102). -/
inductive Access where
  /-- `WR addr, v`: `MemWrite(addr, 1, v)` (R101) -/
  | wr (a : Addr) (v : Byte)
  /-- `RD addr`: `MemRead(addr, 1)` (R101) -/
  | rd (a : Addr)
  /-- `WAIT`: repeat `RD STATUS` until the value read has bit 0 = 0 (R102); one read a step -/
  | poll
deriving DecidableEq, Repr

/-- The statements of a host program: basic (R101) and pseudo (R102). -/
inductive HostStmt where
  /-- `WR addr, v` -/
  | wr (a : HostAddr) (v : Byte)
  /-- `RD addr` -/
  | rd (a : HostAddr)
  /-- `CMD mnemonic` -/
  | cmd (i : Instr)
  /-- `WRBUF NAME, b0 ... b(n-1)` -/
  | wrbuf (r : Reg) (bs : List Byte)
  /-- `WRLEN X, n` -/
  | wrlen (x : LenReg) (n : Nat)
  /-- `WAIT` -/
  | wait
  /-- `RUN mnemonic` -/
  | run (i : Instr)
  /-- `STAGE n, b0 ... b(n-1)`; `n` is the number of the bytes -/
  | stage (bs : List Byte)
  /-- `RDBUF NAME, n` -/
  | rdbuf (r : Reg) (n : Nat)
  /-- `EXPECT addr = v`: the read of `RD addr`; the claim that it gives `v` is the reader's (log 18) -/
  | expect (a : HostAddr) (v : Byte)
deriving DecidableEq, Repr

end Sys2Proof
end

