-- ==== Sys2Proof/Machine/AddressMap.lean ====
section
/-! DEFINITION. The address map (R70): where each register and buffer stands, how many bytes it has, and whether the host
may write it. -/

namespace Sys2Proof

/-- The first address of a register or buffer (R70). -/
def Reg.base : Reg → Nat
  | .cmd => 0x000
  | .status => 0x001
  | .errcode => 0x002
  | .missing => 0x003
  | .present => 0x004
  | .vstate => 0x005
  | .seclen => 0x006
  | .keylenLo => 0x008
  | .keylenHi => 0x009
  | .datalenLo => 0x00A
  | .datalenHi => 0x00B
  | .msglenLo => 0x00C
  | .msglenHi => 0x00D
  | .challenLo => 0x00E
  | .challenHi => 0x00F
  | .secret => 0x040
  | .pkey => 0x080
  | .ipad => 0x0C0
  | .opad => 0x100
  | .kpdiag => 0x140
  | .inner => 0x180
  | .digest => 0x1A0
  | .key => 0x200
  | .data => 0x300
  | .msg => 0x400
  | .chal => 0x500
  | .kekh1 => 0x600
  | .kekh2 => 0x610
  | .expresp => 0x620
  | .eipad => 0x640
  | .eopad => 0x680

/-- How many bytes it has (R70). -/
def Reg.size : Reg → Nat
  | .cmd | .status | .errcode | .missing | .present | .vstate | .seclen => 1
  | .keylenLo | .keylenHi | .datalenLo | .datalenHi | .msglenLo | .msglenHi | .challenLo | .challenHi => 1
  | .secret | .pkey | .ipad | .opad | .kpdiag | .eipad | .eopad => 64
  | .inner | .digest | .expresp => 32
  | .key | .data | .msg | .chal => 256
  | .kekh1 | .kekh2 => 16

/-- Whether it is a buffer (R20 b to d), not a control, status or length register (R20 a). -/
def Reg.isBuffer : Reg → Bool
  | .cmd | .status | .errcode | .missing | .present | .vstate | .seclen => false
  | .keylenLo | .keylenHi | .datalenLo | .datalenHi | .msglenLo | .msglenHi | .challenLo | .challenHi => false
  | .secret | .pkey | .ipad | .opad | .kpdiag | .inner | .digest | .key | .data | .msg => true
  | .chal | .kekh1 | .kekh2 | .expresp | .eipad | .eopad => true

/-- Whether a host write stores the byte (the rows marked `RW` in R70). `CMD` is `RW`; its write starts a command (R63). -/
def Reg.writable : Reg → Bool
  | .cmd | .seclen | .keylenLo | .keylenHi | .datalenLo | .datalenHi | .msglenLo | .msglenHi => true
  | .secret | .ipad | .opad | .key | .data | .msg => true
  | .status | .errcode | .missing | .present | .vstate | .challenLo | .challenHi => false
  | .pkey | .kpdiag | .inner | .digest | .chal | .kekh1 | .kekh2 | .expresp | .eipad | .eopad => false

/-- The named rows of R70, in the order of their addresses. -/
def Reg.all : List Reg :=
  [.cmd, .status, .errcode, .missing, .present, .vstate, .seclen,
   .keylenLo, .keylenHi, .datalenLo, .datalenHi, .msglenLo, .msglenHi, .challenLo, .challenHi]
  ++ [.secret, .pkey, .ipad, .opad, .kpdiag, .inner, .digest]
  ++ [.key, .data, .msg, .chal, .kekh1, .kekh2, .expresp, .eipad, .eopad]

/-- Whether address `n` is one of the register's bytes. -/
def Reg.covers (n : Nat) (r : Reg) : Bool := r.base ≤ n && n < r.base + r.size

/-- The register and the offset in it that R70 places at an address; none at a reserved address (R71). -/
def locate (a : Addr) : Option (Reg × Nat) :=
  (Reg.all.find? (Reg.covers a.toNat)).map fun r => (r, a.toNat - r.base)

/-- The 12-bit address of byte `i` of a register, `NAME+i` (R101). -/
def Reg.addr (r : Reg) (i : Nat) : Addr := BitVec.ofNat 12 (r.base + i)

end Sys2Proof
end

