-- ==== Sys2Proof/WellFormed.lean ====
section
/-! DEFINITION. Which terms are well formed. A command has no operands (R93), so every command is; the statements of a host
program have the conditions of R101 and R102. -/

namespace Sys2Proof

/-- A command byte has no operand fields, no immediates and no register numbers (R93): there is nothing a command could have
wrong. Which bytes are no command is the decoder's business (R97). -/
def Instr.wellFormed : Instr → Bool
  | .nop | .clrctx | .padkey | .derive | .xorpads | .hash | .hmac | .cipher | .cipheri | .ciphero => true
  | .setkek1 | .setkek2 | .seteipad | .seteopad | .setchal | .setresp | .verify => true

/-- `NAME+i` names byte `i` of a register or buffer, so `i` is below its size (R101, R40 to R57). -/
def HostAddr.wellFormed : HostAddr → Bool
  | .abs _ => true
  | .named r i => i < r.size

/-- What `WRLEN` can write: `SECLEN` is one byte, "n at most 255"; the others are two (R102). -/
def LenReg.fits : LenReg → Nat → Bool
  | .seclen, n => n < 256
  | .keylen, n | .datalen, n | .msglen, n | .challen, n => n < 65536

/-- The conditions of R101 and R102 on a statement: "`NAME` must be a read-write buffer and `n` at most its size". -/
def HostStmt.wellFormed : HostStmt → Bool
  | .wr a _ => a.wellFormed
  | .rd a => a.wellFormed
  | .cmd i => i.wellFormed
  | .wrbuf r bs => r.isBuffer && r.writable && bs.length ≤ r.size
  | .wrlen x n => x.fits n
  | .wait => true
  | .run i => i.wellFormed
  | .stage bs => bs.length ≤ Config.dataMax
  | .rdbuf r n => n ≤ r.size
  | .expect a _ => a.wellFormed

end Sys2Proof
end

