-- ==== Sys2Proof/Decode.lean ====
section
/-! DEFINITION. The command decoder, total on the 256 bytes (R96), and after it the encoder. -/

namespace Sys2Proof

/-- Why the decoder refuses a byte. -/
inductive DecodeReject where
  /-- The byte is not one of the 17 codes of R94; the engine step then ends with `UnknownCommand` (R98). -/
  | unknownCommand (code : Byte)
deriving DecidableEq, Repr

/-- One row of the opcode map (R94): the two fields of format `C` (R90) and the command. -/
structure OpcodeRow where
  grp : BitVec 4
  fn : BitVec 4
  instr : Instr
deriving DecidableEq, Repr

/-- The byte of a row: `grp` in bits 7:4, `fn` in bits 3:0 (R90). -/
def OpcodeRow.code (r : OpcodeRow) : Byte := r.grp ++ r.fn

/-- The complete opcode map (R94), row for row. -/
def opcodeMap : List OpcodeRow :=
  [⟨0, 0, .nop⟩, ⟨0, 1, .clrctx⟩]
  ++ [⟨1, 0, .padkey⟩, ⟨1, 1, .derive⟩, ⟨1, 2, .xorpads⟩, ⟨1, 3, .hash⟩, ⟨1, 4, .hmac⟩, ⟨1, 5, .cipher⟩,
      ⟨1, 6, .cipheri⟩, ⟨1, 7, .ciphero⟩]
  ++ [⟨2, 0, .setkek1⟩, ⟨2, 1, .setkek2⟩, ⟨2, 2, .seteipad⟩, ⟨2, 3, .seteopad⟩, ⟨2, 4, .setchal⟩,
      ⟨2, 5, .setresp⟩, ⟨2, 15, .verify⟩]

/-- Decode (R96): a total function of the byte alone. -/
def decode (b : Byte) : Except DecodeReject Instr :=
  match opcodeMap.find? fun r => r.code == b with
  | some r => .ok r.instr
  | none => .error (.unknownCommand b)

/-- The code of a command, from the `match` column of spec/opcode_table.json. -/
def encode : Instr → Byte
  | .nop => 0x00
  | .clrctx => 0x01
  | .padkey => 0x10
  | .derive => 0x11
  | .xorpads => 0x12
  | .hash => 0x13
  | .hmac => 0x14
  | .cipher => 0x15
  | .cipheri => 0x16
  | .ciphero => 0x17
  | .setkek1 => 0x20
  | .setkek2 => 0x21
  | .seteipad => 0x22
  | .seteopad => 0x23
  | .setchal => 0x24
  | .setresp => 0x25
  | .verify => 0x2F

/-- What the decoder reads from a row's bits as spec/opcode_table.json numbers them: a command is exactly one byte (R99), so
it is 8 bits and any bit above them must be 0. -/
def decodeTableWord (nbits w : Nat) : Option Instr :=
  if nbits = 8 ∧ w < 2 ^ 8 then
    match decode (BitVec.ofNat 8 w) with
    | .ok i => some i
    | .error _ => none
  else none

end Sys2Proof
end

