-- ==== Sys2Proof/Machine/State.lean ====
section
/-! DEFINITION. The whole state of the block (R20), what stands outside it (host and schedule), and reset (R58). -/

namespace Sys2Proof.Machine

/-- The values of `ERRCODE` (R29, R230 to R234). "No other value ever appears." Log 9. -/
inductive ErrCode where
  /-- 0x00: the command did all its work (R230) -/
  | ok
  /-- 0x01: the cipher key has length zero (R231) -/
  | invalidKey
  /-- 0x02: `VERIFY` with a field absent (R232) -/
  | missingField
  /-- 0x03: the command byte is not one of the 17 codes (R233) -/
  | unknownCommand
  /-- 0x04: a length register holds a value the command's operand cannot have (R234) -/
  | badLength
deriving DecidableEq, Repr

/-- A two-byte length register (R33): both bytes store all 8 bits written. -/
structure Len16 where
  /-- `_LO`, at the lower address -/
  lo : Byte
  /-- `_HI`, at the next address -/
  hi : Byte
deriving DecidableEq, Repr

/-- Who takes the next step: the order of host accesses, engine steps and resets (R73). Log 2. -/
inductive Turn where
  | host
  | engine
  | reset
deriving DecidableEq, Repr

/-- Why a step stops with a fault. There is no reason: an error of a command is recorded and the block goes on (R235, R241),
and every command is a total function of the state (93_implementation_defined.md section 2). Log 10. -/
inductive Fault
deriving DecidableEq, Repr

/-- Why the model gives no meaning. -/
inductive Refusal where
  /-- Raised by `exec` alone, for an instruction without a meaning; no arm of it does. Safe. -/
  | notModelled (mnemonic : String)
deriving DecidableEq, Repr

/-- The whole state (R20), every buffer and register under its own name, and the model's own fields for what stands outside
the block. `STATUS.ERR` and `VSTATE` are functions of it (R20). -/
structure State where
  /-- `CMD` (R21): the code of the command most recently accepted -/
  cmd : Byte
  /-- `STATUS.BUSY` (R23) -/
  busy : Bool
  /-- `STATUS.DONE` (R24) -/
  done : Bool
  /-- `STATUS.VERIFIED` (R26) -/
  verified : Bool
  /-- `STATUS.MATCH` (R27) -/
  matched : Bool
  /-- `STATUS.WRBUSY` (R28) -/
  wrbusy : Bool
  /-- `ERRCODE` (R29) -/
  errcode : ErrCode
  /-- `MISSING` bits 5:0 (R31) -/
  missing : BitVec 6
  /-- `PRESENT` bits 5:0 (R32) -/
  present : BitVec 6
  /-- `SECLEN` (R34) -/
  seclen : Byte
  /-- `KEYLEN` (R35) -/
  keylen : Len16
  /-- `DATALEN` (R36) -/
  datalen : Len16
  /-- `MSGLEN` (R37) -/
  msglen : Len16
  /-- `CHALLEN` (R38) -/
  challen : Len16
  /-- `SECRET` (R40) -/
  secret : Buf Config.secMax
  /-- `PKEY` (R41) -/
  pkey : Buf Config.block
  /-- `IPAD` (R42) -/
  ipad : Buf Config.block
  /-- `OPAD` (R43) -/
  opad : Buf Config.block
  /-- `KPDIAG` (R44) -/
  kpdiag : Buf Config.block
  /-- `INNER` (R45) -/
  inner : Buf Config.dlen
  /-- `DIGEST` (R46) -/
  digest : Buf Config.dlen
  /-- `KEY` (R48) -/
  key : Buf Config.keyMax
  /-- `DATA` (R49) -/
  data : Buf Config.dataMax
  /-- `MSG` (R51) -/
  msg : Buf Config.msgMax
  /-- `CHAL` (R52) -/
  chal : Buf Config.chalMax
  /-- `KEKH1` (R53) -/
  kekh1 : Buf Config.half
  /-- `KEKH2` (R54) -/
  kekh2 : Buf Config.half
  /-- `EXPRESP` (R55) -/
  expresp : Buf Config.dlen
  /-- `EIPAD` (R56) -/
  eipad : Buf Config.block
  /-- `EOPAD` (R57) -/
  eopad : Buf Config.block
  /-- The model's own: the accesses the host still has to perform (R60, R272). Log 1. -/
  program : List Access
  /-- The model's own: who moves next, as far as decided (R66, S2). Log 2. -/
  turns : List Turn
  /-- The model's own: the host's reads so far, newest first, each with the value it returned. Log 6. -/
  reads : List (Addr × Byte)
  /-- The model's own: the counter of the free bytes of R65. Log 5. -/
  draws : Nat
deriving DecidableEq, Repr

/-- A length register after reset (R58). -/
def Len16.zero : Len16 := ⟨0, 0⟩

/-- The state right after reset (R58): every byte of every register and buffer is 0x00. The last four fields are not the
block's: nothing is loaded for the host to do (logs 1, 2, 5, 6: DESIGN CHOICE). -/
def State.reset : State where
  cmd := 0
  busy := false
  done := false
  verified := false
  matched := false
  wrbusy := false
  errcode := .ok
  missing := 0
  present := 0
  seclen := 0
  keylen := .zero
  datalen := .zero
  msglen := .zero
  challen := .zero
  secret := .rep _ 0
  pkey := .rep _ 0
  ipad := .rep _ 0
  opad := .rep _ 0
  kpdiag := .rep _ 0
  inner := .rep _ 0
  digest := .rep _ 0
  key := .rep _ 0
  data := .rep _ 0
  msg := .rep _ 0
  chal := .rep _ 0
  kekh1 := .rep _ 0
  kekh2 := .rep _ 0
  expresp := .rep _ 0
  eipad := .rep _ 0
  eopad := .rep _ 0
  program := []
  turns := []
  reads := []
  draws := 0

end Sys2Proof.Machine
end

