-- ==== Sys2Proof/Machine/Ops.lean ====
section
/-! DEFINITION. The named operations: reading and writing ranges of buffers (R8, R10), the completion record (R235), and
taking an error (R236). -/

namespace Sys2Proof

/-- `B[lo..hi)`: the bytes at offsets `lo` up to but not including `hi` (R8). -/
def Buf.slice {n : Nat} (b : Buf n) (lo hi : Nat) : List Byte := (b.toList.take hi).drop lo

/-- The bytes of a buffer as a string (R8). -/
def Buf.bytes {n : Nat} (b : Buf n) : List Byte := b.toList

/-- `B[lo..lo+|s|) <- s` (R10); bytes of `s` that would fall behind the buffer's end are dropped, every other byte of the
buffer stays. -/
def Buf.put {n : Nat} (b : Buf n) (lo : Nat) (s : List Byte) : Buf n :=
  ⟨((b.toList.take lo ++ s ++ b.toList.drop (lo + s.length)).take n).toArray, by simp; omega⟩

/-- The byte at offset `i`; 0 behind the end, where no address leads (R70). -/
def Buf.get {n : Nat} (b : Buf n) (i : Nat) : Byte := b.toList.getD i 0

/-- `B[i] <- v` (R10). -/
def Buf.set {n : Nat} (b : Buf n) (i : Nat) (v : Byte) : Buf n := b.setIfInBounds i v

/-- `XOR(s, t)` of two strings, byte by byte (R120). -/
def xorBytes (s t : List Byte) : List Byte := List.zipWith (· ^^^ ·) s t

/-- `XOR` of two buffers of one width (R120). -/
def Buf.xor {n : Nat} (s t : Buf n) : Buf n := ⟨(xorBytes s.toList t.toList).toArray, by simp [xorBytes]⟩

end Sys2Proof

namespace Sys2Proof.Machine

/-- `<Error>(info)` of a `raise` (R10): the error with the information it records (R231 to R234). -/
inductive CmdError where
  /-- `InvalidKey` (R231) -/
  | invalidKey
  /-- `MissingField` with the mask of absent fields (R232) -/
  | missingField (mask : BitVec 6)
  /-- `UnknownCommand` (R233) -/
  | unknownCommand
  /-- `BadLength` (R234) -/
  | badLength
deriving DecidableEq, Repr

/-- The value of `ERRCODE` for an error (R231 to R234). -/
def CmdError.code : CmdError → ErrCode
  | .invalidKey => .invalidKey
  | .missingField _ => .missingField
  | .unknownCommand => .unknownCommand
  | .badLength => .badLength

/-- The value of `MISSING` for an error: "the mask, if the code is MissingField; else 0x00" (R235). -/
def CmdError.mask : CmdError → BitVec 6
  | .missingField m => m
  | .invalidKey | .unknownCommand | .badLength => 0

/-- The byte that `ERRCODE` reads as (R29). -/
def ErrCode.byte : ErrCode → Byte
  | .ok => 0x00
  | .invalidKey => 0x01
  | .missingField => 0x02
  | .unknownCommand => 0x03
  | .badLength => 0x04

/-- The completion record (R235). -/
def State.complete (s : State) (e : ErrCode) (m : BitVec 6) : State :=
  { s with errcode := e, missing := m, busy := false, done := true }

/-- The end of a command without error: `ERRCODE` <- 0x00, `MISSING` <- 0x00 (R230, R235). -/
def finish (s : State) : Host.Outcome State Fault Refusal := .next (s.complete .ok 0)

/-- Taking an error: the command's effect is only the completion record with the error's code (R236, R240). There is no return
from an error: it blocks nothing and needs no acknowledgement (R241). -/
def raise (e : CmdError) (s : State) : Host.Outcome State Fault Refusal := .next (s.complete e.code e.mask)

/-- Acceptance of a command (R91): `CMD` <- the byte, `BUSY` <- 1, `DONE` <- 0, and nothing else changes. -/
def State.accept (s : State) (code : Byte) : State := { s with cmd := code, busy := true, done := false }

end Sys2Proof.Machine
end

