-- ==== Sys2Proof/Machine/Operands.lean ====
section
/-! DEFINITION. The implicit operands of the commands (R93, R59): the lengths and the strings they bound, with the errors of
a length the operand cannot have (R231, R234). -/

namespace Sys2Proof.Machine

/-- `LEN16(X) = X_HI * 256 + X_LO` (R33). -/
def Len16.val (x : Len16) : Nat := x.hi.toNat * 256 + x.lo.toNat

/-- A key of the stream cipher, 1 to 256 bytes (R181, R183). For a zero-length key the cipher is not defined (U1), so a key
carries the proof that it is not empty. Log 12. -/
structure CipherKey where
  bytes : List Byte
  pos : 0 < bytes.length
  le : bytes.length ≤ Config.keyMax

/-- `SECRET[0..n)` with `n = min(SECLEN, 64)` (R34, R122, R124). -/
def State.secretOperand (s : State) : List Byte := s.secret.slice 0 (min s.seclen.toNat Config.secMax)

/-- `MSG[0..L)` with `L = LEN16(MSGLEN)`, `BadLength` when `L > 256` (R155, R172). -/
def State.msgOperand (s : State) : Except CmdError (List Byte) :=
  if s.msglen.val > Config.msgMax then .error .badLength else .ok (s.msg.slice 0 s.msglen.val)

/-- The key `KEY[0..n)` for a legal length `n` (R35, R48). -/
def keyOf (b : Buf Config.keyMax) (n : Nat) (h0 : 0 < n) (_h : n ≤ Config.keyMax) : CipherKey where
  bytes := b.slice 0 n
  pos := by simp [Buf.slice]; omega
  le := by simp [Buf.slice]

/-- `KEY[0..n)` with `n = LEN16(KEYLEN)`: `InvalidKey` when `n = 0`, before `BadLength` when `n > 256` (R185 to R187, R238). -/
def State.keyOperand (s : State) : Except CmdError CipherKey :=
  if h0 : s.keylen.val = 0 then .error .invalidKey
  else if h : s.keylen.val > Config.keyMax then .error .badLength
  else .ok (keyOf s.key s.keylen.val (Nat.pos_of_ne_zero h0) (Nat.le_of_not_gt h))

/-- `DATA[0..L)` with `L = LEN16(DATALEN)`, `BadLength` when `L > 256` (R185, R206). -/
def State.dataOperand (s : State) : Except CmdError (List Byte) :=
  if s.datalen.val > Config.dataMax then .error .badLength else .ok (s.data.slice 0 s.datalen.val)

/-- The staged value of a field of fixed width `w`: `DATA[0..w)`, `BadLength` when `LEN16(DATALEN) != w` (R201). -/
def State.stagedField (s : State) (w : Nat) : Except CmdError (List Byte) :=
  if s.datalen.val ≠ w then .error .badLength else .ok (s.data.slice 0 w)

/-- The reconstructed KEK, `KEKH1[0..16) ‖ KEKH2[0..16)`, half1 first: always 32 bytes (R210). -/
def State.kek (s : State) : CipherKey where
  bytes := s.kekh1.bytes ++ s.kekh2.bytes
  pos := by simp [Buf.bytes, Config.half]
  le := by simp [Buf.bytes, Config.half, Config.keyMax]

/-- The stored challenge, `CHAL[0..LEN16(CHALLEN))` (R52, R210). `CHALLEN` is at most 256 (R38, R201); were it more, this is
all of `CHAL` (log 19). -/
def State.challenge (s : State) : List Byte := s.chal.slice 0 s.challen.val

end Sys2Proof.Machine
end

