-- ==== Sys2Proof/Machine/Cipher.lean ====
section
/-! DEFINITION. The stream-cipher engine (44_cipher.md): key schedule, generation, and the commands `CIPHER`, `CIPHERI`,
`CIPHERO`. The exact arithmetic is supplied by the spec from general knowledge (G2, log 16). -/

namespace Sys2Proof.Machine

/-- The permutation `S[0..256)` (R181): scratch of one evaluation, not state (R47). -/
abbrev Perm := Buf 256

/-- `S[i]`, the index a byte (R184). -/
def permAt (S : Perm) (i : Byte) : Byte := S[i.toNat]

/-- Swap `S[i]` and `S[j]` (R181, R182). -/
def permSwap (S : Perm) (i j : Byte) : Perm := (Vector.set S i.toNat (permAt S j)).set j.toNat (permAt S i)

/-- The identity permutation `S[i] = i` (R181). -/
def permIdentity : Perm := Vector.ofFn fun i => BitVec.ofNat 8 i.val

/-- `k[i mod n]`: the key bytes used cyclically (R181). -/
def CipherKey.at (k : CipherKey) (i : Nat) : Byte := k.bytes[i % k.bytes.length]'(Nat.mod_lt _ k.pos)

/-- One iteration of the key schedule on `(j, S)` (R181). -/
def keyStep (k : CipherKey) (js : Byte × Perm) (i : Nat) : Byte × Perm :=
  let i8 := BitVec.ofNat 8 i
  let j := js.1 + permAt js.2 i8 + k.at i
  (j, permSwap js.2 i8 j)

/-- Phase 1, the key schedule: 256 iterations from the identity permutation and `j = 0` (R181). -/
def keySchedule (k : CipherKey) : Perm := ((List.range 256).foldl (keyStep k) (0, permIdentity)).2

/-- Phase 2, generation, from indices `i`, `j` and permutation `S`: one output byte per data byte (R182). -/
def generate (i j : Byte) (S : Perm) : List Byte → List Byte
  | [] => []
  | d :: ds =>
    let i' := i + 1
    let j' := j + permAt S i'
    let S' := permSwap S i' j'
    let t := permAt S' i' + permAt S' j'
    (d ^^^ permAt S' t) :: generate i' j' S' ds

/-- `SC(k, d)` (R183): generation on the permutation that the key schedule builds afresh. -/
def sc (k : CipherKey) (d : List Byte) : List Byte := generate 0 0 (keySchedule k) d

/-- `SC` on a 64-byte pad, in place (R186, R187, R210). -/
def scPad (k : CipherKey) (p : Buf Config.block) : Buf Config.block := p.put 0 (sc k p.bytes)

/-- `CIPHER` (R185): `DATA[0..L)` in place under `KEY`. `InvalidKey` comes before `BadLength` (R238). -/
def execCipher (s : State) : Host.Outcome State Fault Refusal :=
  match s.keyOperand with
  | .error e => raise e s
  | .ok k =>
    match s.dataOperand with
    | .error e => raise e s
    | .ok d => finish { s with data := s.data.put 0 (sc k d) }

/-- `CIPHERI` (R186): `IPAD` in place under `KEY`. -/
def execCipheri (s : State) : Host.Outcome State Fault Refusal :=
  match s.keyOperand with
  | .error e => raise e s
  | .ok k => finish { s with ipad := scPad k s.ipad }

/-- `CIPHERO` (R187): `OPAD` in place under `KEY`. -/
def execCiphero (s : State) : Host.Outcome State Fault Refusal :=
  match s.keyOperand with
  | .error e => raise e s
  | .ok k => finish { s with opad := scPad k s.opad }

end Sys2Proof.Machine
end

