-- ==== Sys2Proof/Machine/Flags.lean ====
section
/-! DEFINITION. The bits of `STATUS` (R22), the context flags (R32, R201), and the two registers computed at every read:
`STATUS.ERR` (R25) and `VSTATE` (R39). -/

namespace Sys2Proof.Machine

/-- The byte of `STATUS` (R22): bits 7:6 are 0, then `WRBUSY`, `MATCH`, `VERIFIED`, `ERR`, `DONE`, `BUSY` in bits 5 to 0. -/
def packStatus (wrbusy matched verified err done busy : Bool) : Byte :=
  0#2 ++ BitVec.ofBool wrbusy ++ BitVec.ofBool matched ++ BitVec.ofBool verified ++ BitVec.ofBool err
    ++ BitVec.ofBool done ++ BitVec.ofBool busy

/-- `STATUS.ERR`: 1 exactly when `ERRCODE` is not 0x00; not a stored bit (R22, R25). -/
def State.err (s : State) : Bool := s.errcode != .ok

/-- What `STATUS` reads as while `BUSY` = 0 (R22, R62). -/
def State.status (s : State) : Byte := packStatus s.wrbusy s.matched s.verified s.err s.done s.busy

/-- What `STATUS` reads as while `BUSY` = 1: bit 0 is 1, bit 1 is 0, bit 5 is `WRBUSY`, bits 7:6 are 0, and bits 4, 3, 2 are
those of an unspecified byte (R65). -/
def State.busyStatus (s : State) (free : Byte) : Byte :=
  packStatus s.wrbusy (free.getLsbD 4) (free.getLsbD 3) (free.getLsbD 2) false true

/-- All six fields are present: `PRESENT[5:0]` = 0b111111 (R32, R39). -/
def allPresent : BitVec 6 := 0b111111

/-- CR's validator states (R39, R200). -/
inductive VState where
  | empty
  | partiallyProvisioned
  | readyToVerify
  | verifiedSuccess
  | verifiedFailure
deriving DecidableEq, Repr

/-- The value of `VSTATE` for each state (R39). -/
def VState.byte : VState → Byte
  | .empty => 0
  | .partiallyProvisioned => 1
  | .readyToVerify => 2
  | .verifiedSuccess => 3
  | .verifiedFailure => 4

/-- `VSTATE`, a function of `PRESENT`, `VERIFIED` and `MATCH` (R39, C2). -/
def State.vstate (s : State) : VState :=
  if s.verified then
    if s.matched then .verifiedSuccess else .verifiedFailure
  else if s.present = allPresent then .readyToVerify
  else if s.present = 0 then .empty
  else .partiallyProvisioned

/-- The mask of absent fields, `~PRESENT[5:0] & 0b111111` (R31, R210). -/
def State.absent (s : State) : BitVec 6 := ~~~s.present &&& allPresent

/-- What a `SETx` does to the flags: `PRESENT[k]` <- 1, `VERIFIED` <- 0, `MATCH` <- 0 (R201). -/
def State.markSet (s : State) (k : Nat) : State :=
  { s with present := s.present ||| (1#6 <<< k), verified := false, matched := false }

/-- The result of a `VERIFY` that completes: `VERIFIED` <- 1, `MATCH` <- the comparison (R27, R210). -/
def State.markVerified (s : State) (equal : Bool) : State := { s with verified := true, matched := equal }

/-- `VERIFIED` and `MATCH` are cleared together with every `PRESENT` bit (R111, R32). -/
def State.clearFlags (s : State) : State := { s with present := 0, verified := false, matched := false }

end Sys2Proof.Machine
end

