-- ==== Sys2Proof/Machine/Control.lean ====
section
/-! DEFINITION. The control commands `NOP` and `CLRCTX` (40_control.md). -/

namespace Sys2Proof.Machine

/-- `NOP` (R110): the completion record only. -/
def execNop (s : State) : Host.Outcome State Fault Refusal := finish s

/-- `CLRCTX` (R111): the whole context store becomes empty; the primitive registers keep their values. -/
def execClrctx (s : State) : Host.Outcome State Fault Refusal :=
  finish
    { s.clearFlags with
      kekh1 := .rep _ 0
      kekh2 := .rep _ 0
      eipad := .rep _ 0
      eopad := .rep _ 0
      chal := .rep _ 0
      challen := .zero
      expresp := .rep _ 0 }

end Sys2Proof.Machine
end

