-- ==== Sys2Proof/Machine/Sha256.lean ====
section
/-! DEFINITION. The SHA-256 hash core (42_sha256.md): the function, and the command `HASH`. The spec supplies the whole
definition from general knowledge (G1, log 15). -/

namespace Sys2Proof.Machine

/-- `ROTR32(x, n)`, 0 < n < 32 (R9). -/
def rotr32 (x : Word) (n : Nat) : Word := (x >>> n) ||| (x <<< (32 - n))

/-- `SHR32(x, n)` (R9). -/
def shr32 (x : Word) (n : Nat) : Word := x >>> n

/-- `Ch` (R142). -/
def ch (x y z : Word) : Word := (x &&& y) ^^^ (~~~x &&& z)

/-- `Maj` (R142). -/
def maj (x y z : Word) : Word := (x &&& y) ^^^ (x &&& z) ^^^ (y &&& z)

/-- `BSIG0` (R142). -/
def bsig0 (x : Word) : Word := rotr32 x 2 ^^^ rotr32 x 13 ^^^ rotr32 x 22

/-- `BSIG1` (R142). -/
def bsig1 (x : Word) : Word := rotr32 x 6 ^^^ rotr32 x 11 ^^^ rotr32 x 25

/-- `SSIG0` (R142). -/
def ssig0 (x : Word) : Word := rotr32 x 7 ^^^ rotr32 x 18 ^^^ shr32 x 3

/-- `SSIG1` (R142). -/
def ssig1 (x : Word) : Word := rotr32 x 17 ^^^ rotr32 x 19 ^^^ shr32 x 10

/-- The 64 round constants (R144), `K[0]` first. -/
def shaK : List Word :=
  [0x428a2f98, 0x71374491, 0xb5c0fbcf, 0xe9b5dba5, 0x3956c25b, 0x59f111f1, 0x923f82a4, 0xab1c5ed5]
  ++ [0xd807aa98, 0x12835b01, 0x243185be, 0x550c7dc3, 0x72be5d74, 0x80deb1fe, 0x9bdc06a7, 0xc19bf174]
  ++ [0xe49b69c1, 0xefbe4786, 0x0fc19dc6, 0x240ca1cc, 0x2de92c6f, 0x4a7484aa, 0x5cb0a9dc, 0x76f988da]
  ++ [0x983e5152, 0xa831c66d, 0xb00327c8, 0xbf597fc7, 0xc6e00bf3, 0xd5a79147, 0x06ca6351, 0x14292967]
  ++ [0x27b70a85, 0x2e1b2138, 0x4d2c6dfc, 0x53380d13, 0x650a7354, 0x766a0abb, 0x81c2c92e, 0x92722c85]
  ++ [0xa2bfe8a1, 0xa81a664b, 0xc24b8b70, 0xc76c51a3, 0xd192e819, 0xd6990624, 0xf40e3585, 0x106aa070]
  ++ [0x19a4c116, 0x1e376c08, 0x2748774c, 0x34b0bcb5, 0x391c0cb3, 0x4ed8aa4a, 0x5b9cca4f, 0x682e6ff3]
  ++ [0x748f82ee, 0x78a5636f, 0x84c87814, 0x8cc70208, 0x90befffa, 0xa4506ceb, 0xbef9a3f7, 0xc67178f2]

/-- Eight words: a chaining value `H[0..8)`, or the working variables `a` to `h` (R146). -/
structure Chain where
  a : Word
  b : Word
  c : Word
  d : Word
  e : Word
  f : Word
  g : Word
  h : Word
deriving DecidableEq, Repr

/-- The initial hash value `IV[0..8)` (R150). -/
def shaIV : Chain :=
  ⟨0x6a09e667, 0xbb67ae85, 0x3c6ef372, 0xa54ff53a, 0x510e527f, 0x9b05688c, 0x1f83d9ab, 0x5be0cd19⟩

/-- Bytes to words, big-endian (R141). -/
def bytesToWords : List Byte → List Word
  | b0 :: b1 :: b2 :: b3 :: rest => (b0 ++ b1 ++ b2 ++ b3) :: bytesToWords rest
  | _ => []

/-- The 8-byte big-endian representation of a number below 2^64 (R143). -/
def be64 (n : Nat) : List Byte := [56, 48, 40, 32, 24, 16, 8, 0].map fun sh => BitVec.ofNat 8 (n >>> sh)

/-- `k = (55 - L) mod 64` (R143), the non-negative remainder. -/
def padZeros (len : Nat) : Nat := ((55 - (len : Int)) % 64).toNat

/-- `pad(s) = s ‖ 0x80 ‖ rep(0x00, k) ‖ len64` (R143). -/
def shaPad (s : List Byte) : List Byte :=
  s ++ [0x80] ++ List.replicate (padZeros s.length) 0 ++ be64 (8 * s.length)

/-- The message schedule, newest word first: `n` more words by R145 in front of those given, so that entry `j` is `W[t-1-j]`. -/
def extendSchedule : Nat → List Word → List Word
  | 0, w => w
  | n + 1, w =>
    extendSchedule n ((ssig1 (w.getD 1 0) + w.getD 6 0 + ssig0 (w.getD 14 0) + w.getD 15 0) :: w)

/-- The schedule `W[0..64)` of a block's sixteen words (R145). -/
def schedule (m : List Word) : List Word := (extendSchedule 48 m.reverse).reverse

/-- One round of R146, with `K[t]` and `W[t]`. -/
def shaRound (v : Chain) (kw : Word × Word) : Chain :=
  let t1 := v.h + bsig1 v.e + ch v.e v.f v.g + kw.1 + kw.2
  let t2 := bsig0 v.a + maj v.a v.b v.c
  ⟨t1 + t2, v.a, v.b, v.c, v.d + t1, v.e, v.f, v.g⟩

/-- Word by word 32-bit addition of two chaining values (R146, last line). -/
def Chain.add (x y : Chain) : Chain :=
  ⟨x.a + y.a, x.b + y.b, x.c + y.c, x.d + y.d, x.e + y.e, x.f + y.f, x.g + y.g, x.h + y.h⟩

/-- `COMPRESS(H, B)` (R146). -/
def compress (hv : Chain) (blk : List Byte) : Chain :=
  hv.add ((shaK.zip (schedule (bytesToWords blk))).foldl shaRound hv)

/-- The 64-byte blocks of a padded message, `P[64i .. 64i+64)` for `i` in 0..N (R147). -/
def shaBlocks (p : List Byte) : List (List Byte) :=
  (List.range (p.length / 64)).map fun i => (p.drop (64 * i)).take 64

/-- Iteration of `COMPRESS` from `IV` over the padded message (R147). -/
def shaChain (s : List Byte) : Chain := (shaBlocks (shaPad s)).foldl compress shaIV

/-- `be32(w)`: the four bytes `w[31:24], w[23:16], w[15:8], w[7:0]` (R151). -/
def be32 (w : Word) : List Byte :=
  [w.extractLsb' 24 8, w.extractLsb' 16 8, w.extractLsb' 8 8, w.extractLsb' 0 8]

/-- Words to bytes: the 32 bytes of a chaining value (R151). -/
def Chain.digest (x : Chain) : Buf Config.dlen :=
  ⟨(be32 x.a ++ be32 x.b ++ be32 x.c ++ be32 x.d ++ be32 x.e ++ be32 x.f ++ be32 x.g ++ be32 x.h).toArray,
    by simp [be32]⟩

/-- `SHA256(s)` (R140, R152): exactly 32 bytes. -/
def sha256 (s : List Byte) : Buf Config.dlen := (shaChain s).digest

/-- `HASH` (R155): `DIGEST` <- SHA256 of the message. -/
def execHash (s : State) : Host.Outcome State Fault Refusal :=
  match s.msgOperand with
  | .error e => raise e s
  | .ok m => finish { s with digest := sha256 m }

end Sys2Proof.Machine
end

