-- ==== Sys2Proof/Machine/Hmac.lean ====
section
/-! DEFINITION. The HMAC processor (43_hmac.md): the two hash paths over caller-supplied pads, and the command `HMAC`. -/

namespace Sys2Proof.Machine

/-- The inner path: `SHA256(ip ‖ m)` (R171). -/
def hmacInner (ip : Buf Config.block) (m : List Byte) : Buf Config.dlen := sha256 (ip.bytes ++ m)

/-- The outer path: `SHA256(op ‖ inner)` (R171). -/
def hmacOuter (op : Buf Config.block) (inner : Buf Config.dlen) : Buf Config.dlen := sha256 (op.bytes ++ inner.bytes)

/-- `HMACF(ip, op, m)` (R171): the pair (inner, outer). The pads are taken as given. -/
def hmacF (ip op : Buf Config.block) (m : List Byte) : Buf Config.dlen × Buf Config.dlen :=
  (hmacInner ip m, hmacOuter op (hmacInner ip m))

/-- `HMAC` (R172): `INNER`, `DIGEST` from the pad registers and the message. -/
def execHmac (s : State) : Host.Outcome State Fault Refusal :=
  match s.msgOperand with
  | .error e => raise e s
  | .ok m => finish { s with inner := (hmacF s.ipad s.opad m).1, digest := (hmacF s.ipad s.opad m).2 }

end Sys2Proof.Machine
end

