-- ==== Sys2Proof/Machine/PadGen.lean ====
section
/-! DEFINITION. The XOR pad generator (41_padgen.md): its two pure functions and the commands `PADKEY`, `DERIVE`, `XORPADS`. -/

namespace Sys2Proof.Machine

/-- The inner pad constant `IBYTE` (R6). -/
def ibyte : Byte := 0x36

/-- The outer pad constant `OBYTE` (R6). -/
def obyte : Byte := 0x5C

/-- `PADKEY(s)` (R121): right-padded with zero bytes to 64 bytes, truncated to 64 if longer. -/
def padKey (s : List Byte) : Buf Config.block := (Buf.rep _ 0).put 0 (s.take Config.block)

/-- `DERIVEPADS(s)` (R123): the padded key XOR 0x36 repeated, and XOR 0x5C repeated. -/
def derivePads (s : List Byte) : Buf Config.block × Buf Config.block :=
  ((padKey s).xor (.rep _ ibyte), (padKey s).xor (.rep _ obyte))

/-- `PADKEY` (R122): `PKEY` <- the padded secret. -/
def execPadkey (s : State) : Host.Outcome State Fault Refusal :=
  finish { s with pkey := padKey s.secretOperand }

/-- `DERIVE` (R124): `PKEY`, `IPAD` and `OPAD` from the secret. -/
def execDerive (s : State) : Host.Outcome State Fault Refusal :=
  finish
    { s with
      pkey := padKey s.secretOperand
      ipad := (derivePads s.secretOperand).1
      opad := (derivePads s.secretOperand).2 }

/-- `XORPADS` (R126): `KPDIAG` <- `IPAD ^ OPAD`, the diagnostic. -/
def execXorpads (s : State) : Host.Outcome State Fault Refusal :=
  finish { s with kpdiag := s.ipad.xor s.opad }

end Sys2Proof.Machine
end

