-- ==== Sys2Proof/Machine/Validator.lean ====
section
/-! DEFINITION. The validator's context commands (45_validator.md): `SETKEK1` to `SETRESP`, and `VERIFY`. -/

namespace Sys2Proof.Machine

/-- A `SETx` of a field of fixed width `w` and number `k` (R201): the staged bytes go into the field's buffer, whole. -/
def setFixed (k w : Nat) (store : List Byte → State → State) (s : State) : Host.Outcome State Fault Refusal :=
  match s.stagedField w with
  | .error e => raise e s
  | .ok f => finish ((store f s).markSet k)

/-- `SETKEK1` (R202): field 0, 16 bytes. -/
def execSetkek1 (s : State) : Host.Outcome State Fault Refusal :=
  setFixed 0 16 (fun f s => { s with kekh1 := s.kekh1.put 0 f }) s

/-- `SETKEK2` (R203): field 1, 16 bytes. -/
def execSetkek2 (s : State) : Host.Outcome State Fault Refusal :=
  setFixed 1 16 (fun f s => { s with kekh2 := s.kekh2.put 0 f }) s

/-- `SETEIPAD` (R204): field 2, 64 bytes. -/
def execSeteipad (s : State) : Host.Outcome State Fault Refusal :=
  setFixed 2 64 (fun f s => { s with eipad := s.eipad.put 0 f }) s

/-- `SETEOPAD` (R205): field 3, 64 bytes. -/
def execSeteopad (s : State) : Host.Outcome State Fault Refusal :=
  setFixed 3 64 (fun f s => { s with eopad := s.eopad.put 0 f }) s

/-- `CHAL[0..L)` <- the staged bytes, `CHAL[L..256)` <- zeros, `CHALLEN` <- `DATALEN` (R201). -/
def State.storeChallenge (s : State) (c : List Byte) : State :=
  { s with
    chal := (s.chal.put 0 c).put c.length (List.replicate (Config.chalMax - c.length) 0)
    challen := s.datalen }

/-- `SETCHAL` (R206): field 4, 0 to 256 bytes. -/
def execSetchal (s : State) : Host.Outcome State Fault Refusal :=
  match s.dataOperand with
  | .error e => raise e s
  | .ok c => finish ((s.storeChallenge c).markSet 4)

/-- `SETRESP` (R207): field 5, 32 bytes. -/
def execSetresp (s : State) : Host.Outcome State Fault Refusal :=
  setFixed 5 32 (fun f s => { s with expresp := s.expresp.put 0 f }) s

/-- The lines of `VERIFY` up to `KEYLEN` (R210): the KEK into `KEY[0..32)`, 32 into `KEYLEN`. -/
def State.loadKek (s : State) : State := { s with key := s.key.put 0 s.kek.bytes, keylen := ⟨0x20, 0x00⟩ }

/-- The decryption lines of `VERIFY` (R210): each pad with a fresh key schedule. -/
def State.decryptPads (s : State) : State := { s with ipad := scPad s.kek s.eipad, opad := scPad s.kek s.eopad }

/-- The recomputation lines of `VERIFY` (R210), over the decrypted pads: `INNER`, `DIGEST`, `KPDIAG`. -/
def State.recompute (s : State) : State :=
  { s with
    inner := (hmacF s.ipad s.opad s.challenge).1
    digest := (hmacF s.ipad s.opad s.challenge).2
    kpdiag := s.ipad.xor s.opad }

/-- The comparison line of `VERIFY` (R210): all 32 bytes (R270). -/
def State.compare (s : State) : State := s.markVerified (s.digest == s.expresp)

/-- `VERIFY` (R210): `MissingField` with the mask when a field is absent; else the lines in order. -/
def execVerify (s : State) : Host.Outcome State Fault Refusal :=
  if s.absent ≠ 0 then raise (.missingField s.absent) s
  else finish s.loadKek.decryptPads.recompute.compare

/-- What a `VERIFY` would put into `DIGEST`: CR's candidate, a function of the context store alone (R210, R213). -/
def State.candidate (s : State) : Buf Config.dlen :=
  (hmacF (scPad s.kek s.eipad) (scPad s.kek s.eopad) s.challenge).2

end Sys2Proof.Machine
end

