-- ==== Sys2Proof/Machine/Dispatch.lean ====
section
/-! DEFINITION. One arm per command: the meaning it has. -/

namespace Sys2Proof.Machine

def exec (i : Instr) (s : State) : Host.Outcome State Fault Refusal :=
  match i with
  | .nop => Sys2Proof.Machine.execNop s
  | .clrctx => Sys2Proof.Machine.execClrctx s
  | .padkey => Sys2Proof.Machine.execPadkey s
  | .derive => Sys2Proof.Machine.execDerive s
  | .xorpads => Sys2Proof.Machine.execXorpads s
  | .hash => Sys2Proof.Machine.execHash s
  | .hmac => Sys2Proof.Machine.execHmac s
  | .cipher => Sys2Proof.Machine.execCipher s
  | .cipheri => Sys2Proof.Machine.execCipheri s
  | .ciphero => Sys2Proof.Machine.execCiphero s
  | .setkek1 => Sys2Proof.Machine.execSetkek1 s
  | .setkek2 => Sys2Proof.Machine.execSetkek2 s
  | .seteipad => Sys2Proof.Machine.execSeteipad s
  | .seteopad => Sys2Proof.Machine.execSeteopad s
  | .setchal => Sys2Proof.Machine.execSetchal s
  | .setresp => Sys2Proof.Machine.execSetresp s
  | .verify => Sys2Proof.Machine.execVerify s

end Sys2Proof.Machine
end

