-- ==== Sys2Proof/Machine/HostPort.lean ====
section
/-! DEFINITION. The host's side of the block: what a read returns (R62, R65), what a write does (R63, R64), reset (R260), and
the host's own next access (R60, R101, R102). -/

namespace Sys2Proof.Machine

/-- The byte at offset `i` of a register or buffer while `BUSY` = 0 (R62). -/
def State.regByte (s : State) (r : Reg) (i : Nat) : Byte :=
  match r with
  | .cmd => s.cmd
  | .status => s.status
  | .errcode => s.errcode.byte
  | .missing => s.missing.zeroExtend 8
  | .present => s.present.zeroExtend 8
  | .vstate => s.vstate.byte
  | .seclen => s.seclen
  | .keylenLo => s.keylen.lo
  | .keylenHi => s.keylen.hi
  | .datalenLo => s.datalen.lo
  | .datalenHi => s.datalen.hi
  | .msglenLo => s.msglen.lo
  | .msglenHi => s.msglen.hi
  | .challenLo => s.challen.lo
  | .challenHi => s.challen.hi
  | .secret => s.secret.get i
  | .pkey => s.pkey.get i
  | .ipad => s.ipad.get i
  | .opad => s.opad.get i
  | .kpdiag => s.kpdiag.get i
  | .inner => s.inner.get i
  | .digest => s.digest.get i
  | .key => s.key.get i
  | .data => s.data.get i
  | .msg => s.msg.get i
  | .chal => s.chal.get i
  | .kekh1 => s.kekh1.get i
  | .kekh2 => s.kekh2.get i
  | .expresp => s.expresp.get i
  | .eipad => s.eipad.get i
  | .eopad => s.eopad.get i

/-- The byte that stands at an address: what a read returns while `BUSY` = 0; 0x00 at a reserved address (R62, R71). -/
def State.byteAt (s : State) (a : Addr) : Byte :=
  match locate a with
  | some (r, i) => s.regByte r i
  | none => 0x00

/-- What a read returns while `BUSY` = 1 (R65), `free` being the unspecified byte. -/
def State.busyByteAt (s : State) (free : Byte) (a : Addr) : Byte :=
  match locate a with
  | some (.cmd, _) => s.cmd
  | some (.status, _) => s.busyStatus free
  | some _ => free
  | none => free

/-- `MemRead(addr, 1)` (R62, R65). -/
def memRead (a : Addr) (s : State) : Byte :=
  if s.busy then s.busyByteAt (Config.freeByte s.draws) a else s.byteAt a

/-- A write of one byte of a read-write register or buffer (R63); a read-only one stays as it is (R64 a). `CMD` and `STATUS`
have effects of their own and are not written here. -/
def State.writeReg (s : State) (r : Reg) (i : Nat) (v : Byte) : State :=
  match r with
  | .seclen => { s with seclen := v }
  | .keylenLo => { s with keylen := { s.keylen with lo := v } }
  | .keylenHi => { s with keylen := { s.keylen with hi := v } }
  | .datalenLo => { s with datalen := { s.datalen with lo := v } }
  | .datalenHi => { s with datalen := { s.datalen with hi := v } }
  | .msglenLo => { s with msglen := { s.msglen with lo := v } }
  | .msglenHi => { s with msglen := { s.msglen with hi := v } }
  | .secret => { s with secret := s.secret.set i v }
  | .ipad => { s with ipad := s.ipad.set i v }
  | .opad => { s with opad := s.opad.set i v }
  | .key => { s with key := s.key.set i v }
  | .data => { s with data := s.data.set i v }
  | .msg => { s with msg := s.msg.set i v }
  | .cmd | .status => s
  | .errcode | .missing | .present | .vstate | .challenLo | .challenHi => s
  | .pkey | .kpdiag | .inner | .digest | .chal | .kekh1 | .kekh2 | .expresp | .eipad | .eopad => s

/-- `MemWrite(addr, 1, v)` while `BUSY` = 0 (R63): `CMD` accepts a command (R91), `STATUS` with bit 5 set clears `WRBUSY` (R22),
a reserved address takes nothing (R64 a, R71). -/
def State.idleWrite (s : State) (a : Addr) (v : Byte) : State :=
  match locate a with
  | some (.cmd, _) => s.accept v
  | some (.status, _) => if v.getLsbD 5 then { s with wrbusy := false } else s
  | some (r, i) => s.writeReg r i v
  | none => s

/-- `MemWrite(addr, 1, v)` (R63, R64): while `BUSY` = 1 it changes nothing except that it sets `WRBUSY`. -/
def memWrite (a : Addr) (v : Byte) (s : State) : State :=
  if s.busy then { s with wrbusy := true } else s.idleWrite a v

/-- The host's record of one read: the block's state does not change (R62); a read made while `BUSY` = 1 uses up one free
byte (R65, logs 5 and 6). -/
def State.recordRead (s : State) (a : Addr) : State :=
  { s with reads := (a, memRead a s) :: s.reads, draws := if s.busy then s.draws + 1 else s.draws }

/-- The host performs the next access of its program (R60, R101). `poll` reads `STATUS` and stays in the program until the
value read has bit 0 = 0 (R102). With no access left the host does nothing. -/
def State.hostAccess (s : State) : State :=
  match s.program with
  | [] => s
  | .rd a :: rest => { s with program := rest }.recordRead a
  | .wr a v :: rest => memWrite a v { s with program := rest }
  | .poll :: rest =>
    let a := Reg.status.addr 0
    if (memRead a s).getLsbD 0 then s.recordRead a else { s with program := rest }.recordRead a

/-- Reset (R260 to R262): every register and buffer byte becomes 0x00, a pending command is abandoned. What stands outside
the block stays: the host's program, its reads, the schedule, the counter of free bytes (log 7). -/
def State.resetBlock (s : State) : State :=
  { State.reset with program := s.program, turns := s.turns, reads := s.reads, draws := s.draws }

end Sys2Proof.Machine
end

