-- ==== Sys2Proof/Machine/Engine.lean ====
section
/-! DEFINITION. The engine's step (R61, R66), and whose turn it is (R66, R73). -/

namespace Sys2Proof.Machine

/-- The engine step (R66): performs the command whose code is in `CMD`. A byte that is no command ends with `UnknownCommand`
(R98). -/
def engineStep (s : State) : Host.Outcome State Fault Refusal :=
  match decode s.cmd with
  | .ok i => exec i s
  | .error (.unknownCommand _) => raise .unknownCommand s

/-- Who moves: the head of `turns`; when nothing is decided, the engine if it has a step, else the host (R66 weak fairness,
log 2). -/
def State.mover (s : State) : Turn :=
  match s.turns with
  | t :: _ => t
  | [] => if s.busy then .engine else .host

/-- The turn is used up. -/
def State.popTurn (s : State) : State := { s with turns := s.turns.tail }

/-- One turn: a host access (R60), the engine's step, which exists exactly when `BUSY` = 1 (R61), or a reset (R260). -/
def takeTurn (t : Turn) (s : State) : Host.Outcome State Fault Refusal :=
  match t with
  | .host => .next s.hostAccess
  | .engine => if s.busy then engineStep s else .next s
  | .reset => .next s.resetBlock

end Sys2Proof.Machine
end

