-- ==== Sys2Proof/Machine/HostProgram.lean ====
section
/-! DEFINITION. The notation for host programs (R101, R102): each statement's expansion into accesses. -/

namespace Sys2Proof.Machine

/-- The 12-bit address of an address operand (R101). -/
def hostAddr : HostAddr → Addr
  | .abs a => a
  | .named r i => r.addr i

/-- `WR NAME+0, b0; WR NAME+1, b1; ...` from offset `i` on (R102). -/
def writeBytes (r : Reg) : Nat → List Byte → List Access
  | _, [] => []
  | i, b :: bs => .wr (r.addr i) b :: writeBytes r (i + 1) bs

/-- `WRLEN X, n` (R102): `WR X_LO, n mod 256`; `WR X_HI, n div 256`; one write for `SECLEN`. -/
def writeLen (x : LenReg) (n : Nat) : List Access :=
  let lo := BitVec.ofNat 8 (n % 256)
  let hi := BitVec.ofNat 8 (n / 256)
  match x with
  | .seclen => [.wr (Reg.seclen.addr 0) (BitVec.ofNat 8 n)]
  | .keylen => [.wr (Reg.keylenLo.addr 0) lo, .wr (Reg.keylenHi.addr 0) hi]
  | .datalen => [.wr (Reg.datalenLo.addr 0) lo, .wr (Reg.datalenHi.addr 0) hi]
  | .msglen => [.wr (Reg.msglenLo.addr 0) lo, .wr (Reg.msglenHi.addr 0) hi]
  | .challen => [.wr (Reg.challenLo.addr 0) lo, .wr (Reg.challenHi.addr 0) hi]

/-- The accesses of one statement (R101, R102). -/
def expandStmt : HostStmt → List Access
  | .wr a v => [.wr (hostAddr a) v]
  | .rd a => [.rd (hostAddr a)]
  | .cmd i => [.wr (Reg.cmd.addr 0) (encode i)]
  | .wrbuf r bs => writeBytes r 0 bs
  | .wrlen x n => writeLen x n
  | .wait => [.poll]
  | .run i => [.wr (Reg.cmd.addr 0) (encode i), .poll]
  | .stage bs => writeBytes .data 0 bs ++ writeLen .datalen bs.length
  | .rdbuf r n => (List.range n).map fun i => .rd (r.addr i)
  | .expect a _ => [.rd (hostAddr a)]

/-- The accesses of a host program, in order (R102, R272). -/
def expand (p : List HostStmt) : List Access := p.flatMap expandStmt

/-- A state with a host program put in front of what the host still has to do (R272). -/
def State.withProgram (s : State) (p : List HostStmt) : State := { s with program := expand p ++ s.program }

end Sys2Proof.Machine
end

