-- ==== Sys2Proof/Machine/Step.lean ====
section
/-! DEFINITION. One step of the machine: one access, engine step or reset of the single total order of R73. -/

namespace Sys2Proof.Machine

/-- One step (R73): the mover takes its turn. -/
def step (s : State) : Host.Outcome State Fault Refusal := takeTurn s.mover s.popTurn

/-- The state in which the command whose bits are `w` has just been accepted (R91) and the engine moves next, so that the
next step performs it (R61, R66). The block fetches nothing (R30): a command comes from the host's write to `CMD`, for which
this stands (log 20). A command is one byte, whatever `nbits` says (R99). -/
def State.withFetchWord (s : State) (_nbits w : Nat) : State :=
  { s.accept (BitVec.ofNat 8 w) with turns := .engine :: s.turns }

end Sys2Proof.Machine
end

