-- ==== Sys2Proof/Safety.lean ====
section
/-! DEFINITION. The terms the claims use: the registers of the block alone, the invariant of the machine, the table of what a
command writes (R59), a swap of two table entries, and a host program that obeys R266. -/

namespace Sys2Proof

/-- The six `SETx` commands (R201). -/
def Instr.isSet : Instr → Bool
  | .setkek1 | .setkek2 | .seteipad | .seteopad | .setchal | .setresp => true
  | .nop | .clrctx | .padkey | .derive | .xorpads | .hash | .hmac | .cipher | .cipheri | .ciphero | .verify => false

/-- The commands that do not write the context store (R59): `NOP` and the primitives of group 1. -/
def Instr.isPrimitive : Instr → Bool
  | .nop | .padkey | .derive | .xorpads | .hash | .hmac | .cipher | .cipheri | .ciphero => true
  | .clrctx | .setkek1 | .setkek2 | .seteipad | .seteopad | .setchal | .setresp | .verify => false

end Sys2Proof

namespace Sys2Proof.Machine

/-- The block alone: every register of R20, with the model's own fields blanked. -/
def State.block (s : State) : State := { s with program := [], turns := [], reads := [], draws := 0 }

/-- What every reachable state meets. -/
structure State.Inv (s : State) : Prop where
  /-- "`BUSY` and `DONE` are never both 1" (R24). -/
  busy_done : s.busy = true → s.done = false
  /-- `MATCH` is "0 whenever `VERIFIED` is 0" (R22). -/
  matched_verified : s.matched = true → s.verified = true
  /-- "`VERIFIED` = 1 implies `PRESENT[5:0]` = 0b111111" (R212). -/
  verified_present : s.verified = true → s.present = allPresent
  /-- `CHALLEN` is 0 to 256 (R38). -/
  challen_le : s.challen.val ≤ Config.chalMax
  /-- "`CHAL[LEN16(CHALLEN)..256)` is all zero" (R52). -/
  chal_tail : ∀ i, s.challen.val ≤ i → s.chal.get i = 0
  /-- `MISSING` is nonzero exactly after a `MissingField` (R31). -/
  missing_iff : s.missing ≠ 0 ↔ s.errcode = .missingField
  /-- A field that is absent holds zeros (R58, R111, R201): kekHalf1, and so on in the order of R32. -/
  absent_kekh1 : s.present.getLsbD 0 = false → s.kekh1 = .rep _ 0
  absent_kekh2 : s.present.getLsbD 1 = false → s.kekh2 = .rep _ 0
  absent_eipad : s.present.getLsbD 2 = false → s.eipad = .rep _ 0
  absent_eopad : s.present.getLsbD 3 = false → s.eopad = .rep _ 0
  absent_chal : s.present.getLsbD 4 = false → s.chal = .rep _ 0 ∧ s.challen = .zero
  absent_expresp : s.present.getLsbD 5 = false → s.expresp = .rep _ 0
  /-- While `VERIFIED` = 1, `MATCH` is the comparison of the context as it stands: no set has changed a field since (R26, R201). -/
  verdict : s.verified = true → s.matched = (s.candidate == s.expresp)

/-- The registers a command writes beside its completion record when it completes without error: the last column of R59, with
`VSTATE` and `STATUS` named where `PRESENT`, `VERIFIED` or `MATCH` is. -/
def writtenBy : Instr → List Reg
  | .nop => []
  | .clrctx => [.present, .status, .vstate, .challenLo, .challenHi, .kekh1, .kekh2, .eipad, .eopad, .chal, .expresp]
  | .padkey => [.pkey]
  | .derive => [.pkey, .ipad, .opad]
  | .xorpads => [.kpdiag]
  | .hash => [.digest]
  | .hmac => [.inner, .digest]
  | .cipher => [.data]
  | .cipheri => [.ipad]
  | .ciphero => [.opad]
  | .setkek1 => [.kekh1, .present, .status, .vstate]
  | .setkek2 => [.kekh2, .present, .status, .vstate]
  | .seteipad => [.eipad, .present, .status, .vstate]
  | .seteopad => [.eopad, .present, .status, .vstate]
  | .setchal => [.chal, .challenLo, .challenHi, .present, .status, .vstate]
  | .setresp => [.expresp, .present, .status, .vstate]
  | .verify => [.key, .keylenLo, .keylenHi, .ipad, .opad, .inner, .digest, .kpdiag, .status, .vstate]

/-- The registers of the completion record (R235). -/
def recordRegs : List Reg := [.status, .errcode, .missing]

/-- The registers a command reads: the middle column of R59, with both bytes of a length register. -/
def readsOf : Instr → List Reg
  | .nop | .clrctx => []
  | .padkey | .derive => [.secret, .seclen]
  | .xorpads => [.ipad, .opad]
  | .hash => [.msg, .msglenLo, .msglenHi]
  | .hmac => [.ipad, .opad, .msg, .msglenLo, .msglenHi]
  | .cipher => [.key, .keylenLo, .keylenHi, .data, .datalenLo, .datalenHi]
  | .cipheri => [.key, .keylenLo, .keylenHi, .ipad]
  | .ciphero => [.key, .keylenLo, .keylenHi, .opad]
  | .setkek1 | .setkek2 | .seteipad | .seteopad | .setchal | .setresp => [.data, .datalenLo, .datalenHi]
  | .verify => [.present, .kekh1, .kekh2, .eipad, .eopad, .chal, .challenLo, .challenHi, .expresp]

/-- Which error a command must record in a state (R231, R232, R234), in the order of R238. -/
def errorOf (i : Instr) (s : State) : ErrCode :=
  match i with
  | .nop | .clrctx | .padkey | .derive | .xorpads => .ok
  | .hash | .hmac => if s.msglen.val > 256 then .badLength else .ok
  | .cipher =>
    if s.keylen.val = 0 then .invalidKey
    else if s.keylen.val > 256 ∨ s.datalen.val > 256 then .badLength else .ok
  | .cipheri | .ciphero =>
    if s.keylen.val = 0 then .invalidKey else if s.keylen.val > 256 then .badLength else .ok
  | .setkek1 | .setkek2 => if s.datalen.val = 16 then .ok else .badLength
  | .seteipad | .seteopad => if s.datalen.val = 64 then .ok else .badLength
  | .setresp => if s.datalen.val = 32 then .ok else .badLength
  | .setchal => if s.datalen.val > 256 then .badLength else .ok
  | .verify => if s.present = allPresent then .ok else .missingField

/-- The addresses of the bytes a host write stores, `CMD` apart: the rows marked `RW` in R70. -/
def storedByHost (n : Nat) : Bool :=
  n == 0x006 || (0x008 ≤ n && n ≤ 0x00D) || (0x040 ≤ n && n ≤ 0x07F) || (0x0C0 ≤ n && n ≤ 0x13F)
    || (0x200 ≤ n && n ≤ 0x4FF)

/-- The reserved addresses (R71). -/
def reserved (n : Nat) : Bool :=
  n == 0x007 || (0x010 ≤ n && n ≤ 0x03F) || (0x1C0 ≤ n && n ≤ 0x1FF) || (0x6C0 ≤ n && n ≤ 0xFFF)

/-- `S'` is `S` with the entries at `i` and `j` swapped (R181, R182), the 256 entries as numbers. -/
def Swapped (S S' : Nat → Nat) (i j : Nat) : Prop :=
  S' i = S j ∧ S' j = S i ∧ ∀ x < 256, x ≠ i → x ≠ j → S' x = S x

/-- Several commands, one engine step after the other, with nothing else between. -/
def runCommands : List Instr → State → Host.Outcome State Fault Refusal
  | [], s => .next s
  | i :: is, s =>
    match exec i s with
    | .next t => runCommands is t
    | .fault r => .fault r
    | .refused r => .refused r

/-- The host stages a string: `DATA` and `DATALEN` hold it (R49). -/
def State.staged (s : State) (d : Buf Config.dataMax) (n : Len16) : State := { s with data := d, datalen := n }

/-- The two states hold the same context store (R50). -/
def State.SameContext (s t : State) : Prop :=
  s.present = t.present ∧ s.verified = t.verified ∧ s.matched = t.matched ∧ s.kekh1 = t.kekh1 ∧ s.kekh2 = t.kekh2 ∧
    s.eipad = t.eipad ∧ s.eopad = t.eopad ∧ s.chal = t.chal ∧ s.challen = t.challen ∧ s.expresp = t.expresp

/-- A host program that obeys R266: a write to `CMD` is followed by a `WAIT`, or is the last access. -/
def disciplined : List Access → Bool
  | [] => true
  | .rd _ :: rest => disciplined rest
  | .poll :: rest => disciplined rest
  | .wr a _ :: rest =>
    (a ≠ Reg.cmd.addr 0 || match rest with
      | [] => true
      | .poll :: _ => true
      | .rd _ :: _ => false
      | .wr _ _ :: _ => false)
    && disciplined rest

/-- The run has ended (R272): the host has performed its last access and `BUSY` = 0. -/
def State.ended (s : State) : Prop := s.program = [] ∧ s.busy = false

/-- `n` steps of the machine, stopping at a fault or a refusal. -/
def runSteps : Nat → State → Host.Outcome State Fault Refusal
  | 0, s => .next s
  | n + 1, s =>
    match step s with
    | .next t => runSteps n t
    | .fault r => .fault r
    | .refused r => .refused r

end Sys2Proof.Machine
end

