-- ==== Sys2Proof/Certificates/Slice0/Obligations.lean ====
section
/-! DEFINITION. The statements for the provers. -/

open Sys2Proof Sys2Proof.Machine

/-! Encoding (30_encoding.md). -/

/-- R94: the complete opcode map, the 17 codes written out; every other byte is unknown. -/
def Obligations.OpcodeMapWords : Prop :=
  (decode 0x00 = .ok .nop ∧ decode 0x01 = .ok .clrctx) ∧
  (decode 0x10 = .ok .padkey ∧ decode 0x11 = .ok .derive ∧ decode 0x12 = .ok .xorpads ∧ decode 0x13 = .ok .hash ∧
    decode 0x14 = .ok .hmac ∧ decode 0x15 = .ok .cipher ∧ decode 0x16 = .ok .cipheri ∧ decode 0x17 = .ok .ciphero) ∧
  (decode 0x20 = .ok .setkek1 ∧ decode 0x21 = .ok .setkek2 ∧ decode 0x22 = .ok .seteipad ∧ decode 0x23 = .ok .seteopad ∧
    decode 0x24 = .ok .setchal ∧ decode 0x25 = .ok .setresp ∧ decode 0x2F = .ok .verify) ∧
  ∀ b : Byte,
    b ∉ [0x00#8, 0x01, 0x10, 0x11, 0x12, 0x13, 0x14, 0x15, 0x16, 0x17, 0x20, 0x21, 0x22, 0x23, 0x24, 0x25, 0x2F] →
      decode b = .error (.unknownCommand b)

/-- Decoder and encoder agree, both ways: a byte decodes to a command exactly when it is the command's code. -/
def Obligations.DecodeEncodeAgree : Prop := ∀ (b : Byte) (i : Instr), decode b = .ok i ↔ b = encode i

/-- R97: exactly the codes 0x02 to 0x0F, 0x18 to 0x1F, 0x26 to 0x2E and 0x30 to 0xFF are unknown. -/
def Obligations.UnknownCodesExactly : Prop :=
  ∀ b : Byte, decode b = .error (.unknownCommand b) ↔
    (0x02 ≤ b.toNat ∧ b.toNat ≤ 0x0F) ∨ (0x18 ≤ b.toNat ∧ b.toNat ≤ 0x1F) ∨ (0x26 ≤ b.toNat ∧ b.toNat ≤ 0x2E) ∨
      (0x30 ≤ b.toNat ∧ b.toNat ≤ 0xFF)

/-! The step (20_memory.md, 30_encoding.md, 60_exceptions.md, 70_reset_and_hazards.md). -/

/-- When a command is pending, it is the engine's turn and the byte in `CMD` decodes to `i`, the step is the command `i` at
that state, with the turn used up (whose turn it is, is the model's choice, log 2). -/
def Obligations.StepRunsAcceptedCommand : Prop :=
  ∀ (s : State) (i : Instr), s.busy = true → s.mover = .engine → decode s.cmd = .ok i →
    step s = exec i { s with turns := s.turns.tail }

/-- An unknown code is performed (R98): the step ends with the record of `UnknownCommand` and changes no other register. The
turn that the step uses up is the model's own (log 2, the model's choice). -/
def Obligations.UnknownCommandStep : Prop :=
  ErrCode.unknownCommand.byte = 0x03 ∧
  ∀ s : State, s.busy = true → s.mover = .engine → (∀ i, s.cmd ≠ encode i) →
    step s = .next
      { s with turns := s.turns.tail, errcode := .unknownCommand, missing := 0, busy := false, done := true }

/-- Every step answers a next state: no fault and no refusal in any state (the model's choice where nothing is left to do, logs
3, 4 and 10). -/
def Obligations.StepAlwaysNext : Prop := ∀ s : State, ∃ t, step s = .next t

/-- R260, R261: a reset, in any state, also while a command is pending, replaces the whole state of the block by the reset
state; what stands outside the block stays (log 7, the model's choice). -/
def Obligations.ResetReplacesState : Prop :=
  ∀ s : State, s.mover = .reset →
    step s = .next
      { State.reset with program := s.program, turns := s.turns.tail, reads := s.reads, draws := s.draws }

/-- R58: after reset every byte of every register and buffer is 0x00. -/
def Obligations.ResetReadsZero : Prop := ∀ a : Addr, memRead a State.reset = 0

/-- The invariant holds after reset. -/
def Obligations.ResetMeetsInvariant : Prop := State.reset.Inv

/-- From every state that meets the invariant, every step (a host access, an engine step, a reset) gives one that meets it. -/
def Obligations.StepKeepsInvariant : Prop := ∀ s t : State, s.Inv → step s = .next t → t.Inv

/-! Control commands (40_control.md). -/

/-- R110: `NOP` writes the completion record only. -/
def Obligations.NopWritesRecordOnly : Prop :=
  decode 0x00 = .ok .nop ∧
  ∀ s : State, exec .nop s = .next { s with errcode := .ok, missing := 0, busy := false, done := true }

/-- R111: `CLRCTX` empties the context store and leaves every primitive register alone. -/
def Obligations.ClrctxEmptiesContext : Prop :=
  decode 0x01 = .ok .clrctx ∧
  ∀ s : State, ∃ t, exec .clrctx s = .next t ∧ t.vstate = .empty ∧
    t = { s with
      present := 0, verified := false, matched := false
      kekh1 := .rep _ 0, kekh2 := .rep _ 0, eipad := .rep _ 0, eopad := .rep _ 0, chal := .rep _ 0
      challen := ⟨0, 0⟩, expresp := .rep _ 0
      errcode := .ok, missing := 0, busy := false, done := true }

/-! Pad generator (41_padgen.md). -/

/-- R122: `PADKEY` writes the padded secret, in every state. -/
def Obligations.PadkeyPadsSecret : Prop :=
  decode 0x10 = .ok .padkey ∧
  ∀ s : State, ∃ p : Buf 64,
    exec .padkey s = .next { s with pkey := p, errcode := .ok, missing := 0, busy := false, done := true } ∧
    ∀ i < 64, p.get i = if i < min s.seclen.toNat 64 then s.secret.get i else 0

/-- R124: `DERIVE` writes the padded key and both pads, in every state. -/
def Obligations.DeriveComputesPads : Prop :=
  decode 0x11 = .ok .derive ∧
  ∀ s : State, ∃ p ip op : Buf 64,
    exec .derive s = .next
      { s with pkey := p, ipad := ip, opad := op, errcode := .ok, missing := 0, busy := false, done := true } ∧
    ∀ i < 64, (p.get i = if i < min s.seclen.toNat 64 then s.secret.get i else 0) ∧
      ip.get i = p.get i ^^^ 0x36 ∧ op.get i = p.get i ^^^ 0x5C

/-- R126: `XORPADS` writes the diagnostic, in every state; it is 64 bytes 0x6A when the pads are a pad pair of one secret, plain
or both enciphered under one key. -/
def Obligations.XorpadsWritesDiagnostic : Prop :=
  decode 0x12 = .ok .xorpads ∧
  ∀ s : State, ∃ k : Buf 64,
    exec .xorpads s = .next { s with kpdiag := k, errcode := .ok, missing := 0, busy := false, done := true } ∧
    (∀ i < 64, k.get i = s.ipad.get i ^^^ s.opad.get i) ∧
    ∀ secret : List Byte,
      (s.ipad = (derivePads secret).1 ∧ s.opad = (derivePads secret).2) ∨
        (∃ c : CipherKey, s.ipad = scPad c (derivePads secret).1 ∧ s.opad = scPad c (derivePads secret).2) →
      k = .rep _ 0x6A

/-- The two pads of one secret differ by 0x6A in every byte, and either pad reveals the padded key (the spec's own
inference, R125). So `DERIVE` then `XORPADS` leaves 64 bytes 0x6A in `KPDIAG`, whatever the secret, also with both pads
enciphered under any legal key between. -/
def Obligations.PadPairCancels : Prop :=
  (∀ s : List Byte, (derivePads s).1.xor (derivePads s).2 = .rep _ 0x6A ∧
    (derivePads s).1.xor (.rep _ 0x36) = padKey s) ∧
  ∀ s : State,
    (∃ t, runCommands [.derive, .xorpads] s = .next t ∧ t.kpdiag = .rep _ 0x6A) ∧
    (0 < s.keylen.val → s.keylen.val ≤ 256 →
      ∃ t, runCommands [.derive, .cipheri, .ciphero, .xorpads] s = .next t ∧ t.kpdiag = .rep _ 0x6A)

/-! SHA-256 and HMAC (42_sha256.md, 43_hmac.md). -/

/-- R144, R150: `K[t]` is the first 32 bits of the fractional part of the cube root of the (t+1)-th prime, `IV[i]` of the square
root of the (i+1)-th. Written for the integer part `c` of the root: `c * 2^32 + K[t]` is the integer part of the cube root of
`p * 2^96`, and `c * 2^32 + IV[i]` that of the square root of `p * 2^64`. -/
def Obligations.HashConstantsAreRoots : Prop :=
  let prime (t : Nat) : Nat := ((List.range 312).filter fun n => 2 ≤ n ∧ ∀ d < n, 2 ≤ d → n % d ≠ 0).getD t 0
  let iv : List Word := [shaIV.a, shaIV.b, shaIV.c, shaIV.d, shaIV.e, shaIV.f, shaIV.g, shaIV.h]
  (shaK.length = 64 ∧
    ∀ t < 64, ∃ c < 8,
      let r := c * 2 ^ 32 + (shaK.getD t 0).toNat
      r ^ 3 ≤ prime t * 2 ^ 96 ∧ prime t * 2 ^ 96 < (r + 1) ^ 3) ∧
  ∀ i < 8, ∃ c < 8,
    let r := c * 2 ^ 32 + (iv.getD i 0).toNat
    r ^ 2 ≤ prime i * 2 ^ 64 ∧ prime i * 2 ^ 64 < (r + 1) ^ 2

/-- R143: the padded message is the message, 0x80, the least number of zeros that makes the length a multiple of 64, and the
8-byte big-endian length in bits; it has `(L + 8) div 64 + 1` blocks. -/
def Obligations.PaddedMessageShape : Prop :=
  ∀ s : List Byte, ∃ k l,
    shaPad s = s ++ [0x80] ++ List.replicate k 0 ++ l ∧
    (s.length + 1 + k + 8) % 64 = 0 ∧ (∀ j, (s.length + 1 + j + 8) % 64 = 0 → k ≤ j) ∧
    (l.length = 8 ∧ (8 * s.length < 2 ^ 64 → l.foldl (fun n b => n * 256 + b.toNat) 0 = 8 * s.length)) ∧
    (shaPad s).length = 64 * ((s.length + 8) / 64 + 1)

/-- R142, R141, R145: the six functions with their rotation amounts; a 64-byte block is sixteen big-endian words, and the
schedule continues them to 64 words by the recurrence. -/
def Obligations.MessageScheduleRecurrence : Prop :=
  (∀ x y z : Word, ch x y z = (x &&& y) ^^^ (~~~x &&& z) ∧ maj x y z = (x &&& y) ^^^ (x &&& z) ^^^ (y &&& z)) ∧
  (∀ x : Word,
    bsig0 x = x.rotateRight 2 ^^^ x.rotateRight 13 ^^^ x.rotateRight 22 ∧
    bsig1 x = x.rotateRight 6 ^^^ x.rotateRight 11 ^^^ x.rotateRight 25 ∧
    ssig0 x = x.rotateRight 7 ^^^ x.rotateRight 18 ^^^ x >>> 3 ∧
    ssig1 x = x.rotateRight 17 ^^^ x.rotateRight 19 ^^^ x >>> 10) ∧
  ∀ B : List Byte, B.length = 64 → ∃ m w : List Word, m = bytesToWords B ∧ w = schedule m ∧ m.length = 16 ∧ w.length = 64 ∧
    (∀ t < 16, (m.getD t 0).toNat =
      (B.getD (4 * t) 0).toNat * 2 ^ 24 + (B.getD (4 * t + 1) 0).toNat * 2 ^ 16 + (B.getD (4 * t + 2) 0).toNat * 2 ^ 8
        + (B.getD (4 * t + 3) 0).toNat) ∧
    (∀ t < 16, w.getD t 0 = m.getD t 0) ∧
    ∀ t < 64, 16 ≤ t →
      w.getD t 0 = ssig1 (w.getD (t - 2) 0) + w.getD (t - 7) 0 + ssig0 (w.getD (t - 15) 0) + w.getD (t - 16) 0

/-- The two HMAC paths block by block (the spec's own inference, R170): the first block is the pad itself; the inner path's
other blocks are the message with its padding, the outer path has exactly one more block. -/
def Obligations.HmacPathBlocks : Prop :=
  ∀ (pd : Buf 64) (m : List Byte) (inner : Buf 32),
    (∃ rest, shaBlocks (shaPad (pd.bytes ++ m)) = pd.bytes :: rest ∧ rest.length = (m.length + 8) / 64 + 1 ∧
      ∃ k < 64, rest.flatten = m ++ [0x80] ++ List.replicate k 0 ++ be64 (8 * (64 + m.length))) ∧
    shaBlocks (shaPad (pd.bytes ++ inner.bytes)) =
      [pd.bytes, inner.bytes ++ [0x80] ++ List.replicate 23 0 ++ [0, 0, 0, 0, 0, 0, 3, 0]]

/-- R146, R147, R151, R155. `COMPRESS` is 64 rounds over the schedule of the block and the addition of the old chaining value;
`SHA256` iterates it from `IV` over the blocks of the padded message and gives the eight words out big-endian. `HASH` writes
that digest of `MSG[0..MSGLEN)`; with `MSGLEN` above 256 it records `BadLength` and nothing else. -/
def Obligations.HashWritesDigest : Prop :=
  decode 0x13 = .ok .hash ∧
  (∀ (H : Chain) (B : List Byte), B.length = 64 → ∃ v : Nat → Chain, v 0 = H ∧
    (∀ t < 64,
      let t1 := (v t).h + bsig1 (v t).e + ch (v t).e (v t).f (v t).g + shaK.getD t 0 + (schedule (bytesToWords B)).getD t 0
      let t2 := bsig0 (v t).a + maj (v t).a (v t).b (v t).c
      v (t + 1) =
        { a := t1 + t2, b := (v t).a, c := (v t).b, d := (v t).c
          e := (v t).d + t1, f := (v t).e, g := (v t).f, h := (v t).g }) ∧
    compress H B =
      { a := H.a + (v 64).a, b := H.b + (v 64).b, c := H.c + (v 64).c, d := H.d + (v 64).d
        e := H.e + (v 64).e, f := H.f + (v 64).f, g := H.g + (v 64).g, h := H.h + (v 64).h }) ∧
  (∀ m : List Byte, ∃ (h : Nat → Chain) (w : List Word), h 0 = shaIV ∧
    (∀ i < (m.length + 8) / 64 + 1, h (i + 1) = compress (h i) (((shaPad m).drop (64 * i)).take 64)) ∧
    (let r := h ((m.length + 8) / 64 + 1)
     w = [r.a, r.b, r.c, r.d, r.e, r.f, r.g, r.h]) ∧
    ∀ i < 8, ∀ b < 4, ((sha256 m).get (4 * i + b)).toNat = (w.getD i 0).toNat / 2 ^ (24 - 8 * b) % 256) ∧
  ∀ s : State,
    (s.msglen.val ≤ 256 →
      exec .hash s = .next
        { s with digest := sha256 ((List.range s.msglen.val).map s.msg.get)
                 errcode := .ok, missing := 0, busy := false, done := true }) ∧
    (256 < s.msglen.val →
      exec .hash s = .next { s with errcode := .badLength, missing := 0, busy := false, done := true })

/-- R172: `HMAC` writes the inner digest over `IPAD` and the message, and the outer digest over `OPAD` and the inner one; with
`MSGLEN` above 256 it records `BadLength` and nothing else. -/
def Obligations.HmacHashesTwice : Prop :=
  decode 0x14 = .ok .hmac ∧
  ∀ s : State,
    (s.msglen.val ≤ 256 → ∃ inner outer : Buf 32,
      exec .hmac s = .next
        { s with inner := inner, digest := outer, errcode := .ok, missing := 0, busy := false, done := true } ∧
      inner = sha256 (s.ipad.bytes ++ (List.range s.msglen.val).map s.msg.get) ∧
      outer = sha256 (s.opad.bytes ++ inner.bytes)) ∧
    (256 < s.msglen.val →
      exec .hmac s = .next { s with errcode := .badLength, missing := 0, busy := false, done := true })

/-! Stream cipher (44_cipher.md). -/

/-- R188: the cipher is its own inverse; so each cipher command run twice restores its operand, `DATA`, `IPAD` or `OPAD`. -/
def Obligations.CipherSelfInverse : Prop :=
  (∀ (k : CipherKey) (d : List Byte), sc k (sc k d) = d) ∧
  ∀ s : State, 0 < s.keylen.val → s.keylen.val ≤ 256 →
    (s.datalen.val ≤ 256 → ∃ t, runCommands [.cipher, .cipher] s = .next t ∧ t.data = s.data) ∧
    (∃ t, runCommands [.cipheri, .cipheri] s = .next t ∧ t.ipad = s.ipad) ∧
    (∃ t, runCommands [.ciphero, .ciphero] s = .next t ∧ t.opad = s.opad)

/-- Enciphering is XOR with a keystream that depends on the key alone. Byte `n` of it is `S[(S[i] + S[j]) mod 256]` after the
swap of step `n`, with `i` advanced before use, both indices from 0 and `S` from the key schedule (R182, R183). So two strings
of one length enciphered under one key share one keystream, and the enciphered pads of one secret differ by 0x6A in every byte
(the spec's own inference, R189). -/
def Obligations.KeystreamCancels : Prop :=
  (∀ k : CipherKey, ∃ (S : Nat → Nat → Nat) (j ks : Nat → Nat),
    (∀ x : Byte, S 0 x.toNat = (permAt (keySchedule k) x).toNat) ∧ j 0 = 0 ∧
    (∀ n, ∃ i, i = (n + 1) % 256 ∧ j (n + 1) = (j n + S n i) % 256 ∧ Swapped (S n) (S (n + 1)) i (j (n + 1)) ∧
      ks n = S (n + 1) ((S (n + 1) i + S (n + 1) (j (n + 1))) % 256)) ∧
    ∀ d : List Byte, (sc k d).length = d.length ∧
      ∀ n < d.length, ((sc k d).getD n 0).toNat = (d.getD n 0).toNat ^^^ ks n) ∧
  (∀ (k : CipherKey) (a b : List Byte), a.length = b.length → xorBytes (sc k a) (sc k b) = xorBytes a b) ∧
  ∀ (k : CipherKey) (s : List Byte), (scPad k (derivePads s).1).xor (scPad k (derivePads s).2) = .rep _ 0x6A

/-- A key and a whole-number repetition of it act alike (the spec's own inference, R190). -/
def Obligations.RepeatedKeyActsAlike : Prop :=
  ∀ (k k' : CipherKey) (r : Nat) (d : List Byte), k'.bytes = (List.replicate r k.bytes).flatten → sc k' d = sc k d

/-- R181: from the identity and `j = 0`, 256 iterations of `j = (j + S[i] + k[i mod n]) mod 256` and the swap of `S[i]` and
`S[j]`; `S` is a permutation of the byte values throughout. -/
def Obligations.KeyScheduleIsPermutation : Prop :=
  ∀ k : CipherKey, ∃ (S : Nat → Nat → Nat) (j : Nat → Nat),
    (∀ x < 256, S 0 x = x) ∧ j 0 = 0 ∧
    (∀ i < 256, j (i + 1) = (j i + S i i + (k.bytes.getD (i % k.bytes.length) 0).toNat) % 256 ∧
      Swapped (S i) (S (i + 1)) i (j (i + 1))) ∧
    (∀ i ≤ 256, ∀ x < 256, S i x < 256 ∧ ∀ y < 256, S i x = S i y → x = y) ∧
    ∀ x : Byte, (permAt (keySchedule k) x).toNat = S 256 x.toNat

/-- R185: `CIPHER` replaces `DATA[0..DATALEN)` by its encipherment under `KEY[0..KEYLEN)` and leaves the rest of `DATA`;
`InvalidKey` when `KEYLEN` is 0 whatever `DATALEN` is, else `BadLength` when one of the lengths is above 256. -/
def Obligations.CipherEnciphersData : Prop :=
  decode 0x15 = .ok .cipher ∧
  ∀ s : State,
    (0 < s.keylen.val → s.keylen.val ≤ 256 → s.datalen.val ≤ 256 →
      ∃ (k : CipherKey) (d : Buf 256), k.bytes = (List.range s.keylen.val).map s.key.get ∧
        exec .cipher s = .next { s with data := d, errcode := .ok, missing := 0, busy := false, done := true } ∧
        ∀ i < 256, d.get i =
          if i < s.datalen.val then (sc k ((List.range s.datalen.val).map s.data.get)).getD i 0 else s.data.get i) ∧
    (s.keylen.val = 0 →
      exec .cipher s = .next { s with errcode := .invalidKey, missing := 0, busy := false, done := true }) ∧
    (0 < s.keylen.val → 256 < s.keylen.val ∨ 256 < s.datalen.val →
      exec .cipher s = .next { s with errcode := .badLength, missing := 0, busy := false, done := true })

/-- R186: `CIPHERI` replaces `IPAD` by its encipherment; `InvalidKey` for a key of length 0, `BadLength` above 256. -/
def Obligations.CipheriEnciphersInnerPad : Prop :=
  decode 0x16 = .ok .cipheri ∧
  ∀ s : State,
    (0 < s.keylen.val → s.keylen.val ≤ 256 →
      ∃ (k : CipherKey) (p : Buf 64), k.bytes = (List.range s.keylen.val).map s.key.get ∧
        exec .cipheri s = .next { s with ipad := p, errcode := .ok, missing := 0, busy := false, done := true } ∧
        p.bytes = sc k s.ipad.bytes) ∧
    (s.keylen.val = 0 →
      exec .cipheri s = .next { s with errcode := .invalidKey, missing := 0, busy := false, done := true }) ∧
    (256 < s.keylen.val →
      exec .cipheri s = .next { s with errcode := .badLength, missing := 0, busy := false, done := true })

/-- R187: `CIPHERO` replaces `OPAD` by its encipherment; `InvalidKey` for a key of length 0, `BadLength` above 256. -/
def Obligations.CipheroEnciphersOuterPad : Prop :=
  decode 0x17 = .ok .ciphero ∧
  ∀ s : State,
    (0 < s.keylen.val → s.keylen.val ≤ 256 →
      ∃ (k : CipherKey) (p : Buf 64), k.bytes = (List.range s.keylen.val).map s.key.get ∧
        exec .ciphero s = .next { s with opad := p, errcode := .ok, missing := 0, busy := false, done := true } ∧
        p.bytes = sc k s.opad.bytes) ∧
    (s.keylen.val = 0 →
      exec .ciphero s = .next { s with errcode := .invalidKey, missing := 0, busy := false, done := true }) ∧
    (256 < s.keylen.val →
      exec .ciphero s = .next { s with errcode := .badLength, missing := 0, busy := false, done := true })

/-! Validator (45_validator.md). -/

/-- R202, R203: the two KEK halves are set whole from 16 staged bytes; any other length is `BadLength` and nothing else. -/
def Obligations.SetKekHalves : Prop :=
  (decode 0x20 = .ok .setkek1 ∧ decode 0x21 = .ok .setkek2) ∧
  ∀ s : State,
    (s.datalen.val = 16 → ∃ f g : Buf 16, (∀ i < 16, f.get i = s.data.get i) ∧ g = f ∧
      exec .setkek1 s = .next
        { s with kekh1 := f, present := s.present ||| 0b000001, verified := false, matched := false
                 errcode := .ok, missing := 0, busy := false, done := true } ∧
      exec .setkek2 s = .next
        { s with kekh2 := g, present := s.present ||| 0b000010, verified := false, matched := false
                 errcode := .ok, missing := 0, busy := false, done := true }) ∧
    (s.datalen.val ≠ 16 →
      exec .setkek1 s = .next { s with errcode := .badLength, missing := 0, busy := false, done := true } ∧
      exec .setkek2 s = .next { s with errcode := .badLength, missing := 0, busy := false, done := true })

/-- R204, R205: the two encrypted pads are set whole from 64 staged bytes; any other length is `BadLength` and nothing else. -/
def Obligations.SetEncryptedPads : Prop :=
  (decode 0x22 = .ok .seteipad ∧ decode 0x23 = .ok .seteopad) ∧
  ∀ s : State,
    (s.datalen.val = 64 → ∃ f : Buf 64, (∀ i < 64, f.get i = s.data.get i) ∧
      exec .seteipad s = .next
        { s with eipad := f, present := s.present ||| 0b000100, verified := false, matched := false
                 errcode := .ok, missing := 0, busy := false, done := true } ∧
      exec .seteopad s = .next
        { s with eopad := f, present := s.present ||| 0b001000, verified := false, matched := false
                 errcode := .ok, missing := 0, busy := false, done := true }) ∧
    (s.datalen.val ≠ 64 →
      exec .seteipad s = .next { s with errcode := .badLength, missing := 0, busy := false, done := true } ∧
      exec .seteopad s = .next { s with errcode := .badLength, missing := 0, busy := false, done := true })

/-- R206: the challenge is set from 0 to 256 staged bytes with its length, and no tail of an older one stays; above 256 it is
`BadLength` and nothing else. -/
def Obligations.SetChallenge : Prop :=
  decode 0x24 = .ok .setchal ∧
  ∀ s : State,
    (s.datalen.val ≤ 256 → ∃ c : Buf 256,
      (∀ i < 256, c.get i = if i < s.datalen.val then s.data.get i else 0) ∧
      exec .setchal s = .next
        { s with chal := c, challen := s.datalen, present := s.present ||| 0b010000, verified := false, matched := false
                 errcode := .ok, missing := 0, busy := false, done := true }) ∧
    (256 < s.datalen.val →
      exec .setchal s = .next { s with errcode := .badLength, missing := 0, busy := false, done := true })

/-- R207: the expected response is set whole from 32 staged bytes; any other length is `BadLength` and nothing else. -/
def Obligations.SetExpectedResponse : Prop :=
  decode 0x25 = .ok .setresp ∧
  ∀ s : State,
    (s.datalen.val = 32 → ∃ f : Buf 32, (∀ i < 32, f.get i = s.data.get i) ∧
      exec .setresp s = .next
        { s with expresp := f, present := s.present ||| 0b100000, verified := false, matched := false
                 errcode := .ok, missing := 0, busy := false, done := true }) ∧
    (s.datalen.val ≠ 32 →
      exec .setresp s = .next { s with errcode := .badLength, missing := 0, busy := false, done := true })

/-- R210: with all six fields present (and `CHALLEN` at most 256, as the invariant has it) `VERIFY` reconstructs the KEK,
decrypts the pads, recomputes the digest, writes the diagnostic and compares all 32 bytes; with a field absent it records
`MissingField` with the mask of the absent fields and nothing else. -/
def Obligations.VerifyRecomputesAndCompares : Prop :=
  decode 0x2F = .ok .verify ∧
  ∀ s : State,
    (s.present = 0b111111 → s.challen.val ≤ 256 →
      ∃ (kek : CipherKey) (ky : Buf 256) (ip op kp : Buf 64) (inner outer : Buf 32) (m : Bool),
        exec .verify s = .next
          { s with key := ky, keylen := ⟨0x20, 0x00⟩, ipad := ip, opad := op, inner := inner, digest := outer, kpdiag := kp
                   verified := true, matched := m, errcode := .ok, missing := 0, busy := false, done := true } ∧
        kek.bytes = s.kekh1.bytes ++ s.kekh2.bytes ∧
        (∀ i < 256, ky.get i = if i < 16 then s.kekh1.get i else if i < 32 then s.kekh2.get (i - 16) else s.key.get i) ∧
        ip.bytes = sc kek s.eipad.bytes ∧ op.bytes = sc kek s.eopad.bytes ∧
        inner = sha256 (ip.bytes ++ (List.range s.challen.val).map s.chal.get) ∧
        outer = sha256 (op.bytes ++ inner.bytes) ∧
        (∀ i < 64, kp.get i = ip.get i ^^^ op.get i) ∧
        (m = true ↔ ∀ i < 32, outer.get i = s.expresp.get i)) ∧
    (s.present ≠ 0b111111 →
      exec .verify s = .next
        { s with errcode := .missingField, missing := ~~~s.present, busy := false, done := true })

/-- When `VERIFY` ends in `MissingField`, `VERIFIED` is 0 before and after (the spec's own inference, R212); `VERIFIED` = 1
implies that all six fields are present, and `VSTATE` is never 3 or 4 with a field absent. The premise is the invariant. -/
def Obligations.MissingFieldLeavesUnverified : Prop :=
  ∀ s : State, s.Inv →
    (∀ t, exec .verify s = .next t → t.errcode = .missingField → s.verified = false ∧ t.verified = false) ∧
    (s.verified = true → s.present = 0b111111) ∧
    (s.present ≠ 0b111111 → s.vstate ≠ .verifiedSuccess ∧ s.vstate ≠ .verifiedFailure)

/-- A second `VERIFY` ends in the same state; after any primitive commands it computes the same values again (the spec's own
inference, R213). -/
def Obligations.VerifyIsRepeatable : Prop :=
  (∀ s : State, ∃ t, exec .verify s = .next t ∧ exec .verify t = .next t) ∧
  ∀ (s : State) (ps : List Instr), s.present = 0b111111 → (∀ i ∈ ps, i.isPrimitive = true) →
    ∃ t u w, exec .verify s = .next t ∧ runCommands ps t = .next u ∧ exec .verify u = .next w ∧
      w.SameContext t ∧ w.keylen = t.keylen ∧ w.ipad = t.ipad ∧ w.opad = t.opad ∧ w.inner = t.inner ∧
      w.digest = t.digest ∧ w.kpdiag = t.kpdiag ∧ ∀ i < 32, w.key.get i = t.key.get i

/-- The round trip at the context store (the spec's own inference, R214 (1)): for any pads and any challenge, fields that
hold the pads enciphered under the KEK and the digest of the two hashes as expected response verify. -/
def Obligations.RoundTripVerifies : Prop :=
  ∀ (s : State) (ip op : Buf 64), s.present = 0b111111 → s.challen.val ≤ 256 →
    s.eipad.bytes = sc s.kek ip.bytes → s.eopad.bytes = sc s.kek op.bytes →
    s.expresp = (hmacF ip op ((List.range s.challen.val).map s.chal.get)).2 →
    ∃ t, exec .verify s = .next t ∧ t.vstate = .verifiedSuccess ∧ t.ipad = ip ∧ t.opad = op

/-- The round trip of the builder's commands and `VERIFY` (CR §8 item 4), the context being set already: a builder runs
`DERIVE`, `HMAC`, `CIPHERI`, `CIPHERO` on any secret, message and 32-byte key; a validator whose six fields hold the halves
of that key, the resulting pads, the message and the digest ends `VERIFY` in `Verified{success}`, with the diagnostic
constant. -/
def Obligations.BundleRoundTrip : Prop :=
  ∀ b : State, b.keylen.val = 32 → b.msglen.val ≤ 256 →
    ∃ e, runCommands [.derive, .hmac, .cipheri, .ciphero] b = .next e ∧
      ∀ v : State, v.present = 0b111111 →
        (∀ i < 16, v.kekh1.get i = b.key.get i ∧ v.kekh2.get i = b.key.get (16 + i)) →
        v.eipad = e.ipad → v.eopad = e.opad → v.challen = b.msglen →
        (∀ i < b.msglen.val, v.chal.get i = b.msg.get i) → v.expresp = e.digest →
        ∃ t, exec .verify v = .next t ∧ t.vstate = .verifiedSuccess ∧ t.kpdiag = .rep _ 0x6A

/-- The computation of `VERIFY` by primitive commands leaves the same seven registers (the spec's own inference, R215). -/
def Obligations.VerifyByPrimitives : Prop :=
  ∀ s p : State, s.present = 0b111111 → s.challen.val ≤ 256 →
    (∀ i < 16, p.key.get i = s.kekh1.get i ∧ p.key.get (16 + i) = s.kekh2.get i) → p.keylen.val = 32 →
    p.ipad = s.eipad → p.opad = s.eopad → p.msglen = s.challen → (∀ i < s.challen.val, p.msg.get i = s.chal.get i) →
    ∃ t q, exec .verify s = .next t ∧ runCommands [.cipheri, .ciphero, .hmac, .xorpads] p = .next q ∧
      q.errcode = .ok ∧ (∀ i < 32, q.key.get i = t.key.get i) ∧ q.keylen = t.keylen ∧ q.ipad = t.ipad ∧ q.opad = t.opad ∧
      q.inner = t.inner ∧ q.digest = t.digest ∧ q.kpdiag = t.kpdiag ∧ q.SameContext p

/-- R200: every transition of the validator's state, row by row. The premise is the invariant. -/
def Obligations.ValidatorTransitions : Prop :=
  (State.reset.vstate = .empty ∧ ∀ s : State, s.mover = .reset → ∃ t, step s = .next t ∧ t.vstate = .empty) ∧
  ∀ (i : Instr) (s : State), s.Inv → ∃ t, exec i s = .next t ∧
    (t.errcode ≠ .ok → t.vstate = s.vstate) ∧
    (i.isPrimitive = true → t.vstate = s.vstate) ∧
    (i = .clrctx → t.vstate = .empty) ∧
    (i.isSet = true → t.errcode = .ok →
      (s.vstate = .empty → t.vstate = .partiallyProvisioned) ∧
      (s.vstate = .partiallyProvisioned →
        (t.present ≠ 0b111111 → t.vstate = .partiallyProvisioned) ∧ (t.present = 0b111111 → t.vstate = .readyToVerify)) ∧
      (s.vstate = .readyToVerify ∨ s.vstate = .verifiedSuccess ∨ s.vstate = .verifiedFailure →
        t.vstate = .readyToVerify ∧ t.present = 0b111111)) ∧
    (i = .verify → s.vstate = .empty ∨ s.vstate = .partiallyProvisioned → t.errcode = .missingField) ∧
    (i = .verify → s.vstate = .readyToVerify →
      t.errcode = .ok ∧ t.vstate = if t.digest = s.expresp then .verifiedSuccess else .verifiedFailure) ∧
    (i = .verify → s.vstate = .verifiedSuccess ∨ s.vstate = .verifiedFailure → t.errcode = .ok ∧ t.vstate = s.vstate)

/-- The end state of the context depends only on the last value set for each field (the spec's own inference, R208). Two
sets of different fields, each from its own staging, may be exchanged; a set that completes hides an earlier set of the same
field. -/
def Obligations.SetsAreIndependent : Prop :=
  ∀ (i j : Instr) (s : State) (d e : Buf 256) (m n : Len16), i.isSet = true → j.isSet = true →
    ∃ a b a' b', exec i (s.staged d m) = .next a ∧ exec j (a.staged e n) = .next b ∧
      exec j (s.staged e n) = .next a' ∧ exec i (a'.staged d m) = .next b' ∧
      (i ≠ j → b.SameContext b') ∧ (i = j → b.errcode = .ok → b.SameContext a')

/-! Errors, frames and what commands depend on (60_exceptions.md, 10_state.md). -/

/-- R235: every engine step, for every command byte, ends with the completion record: the code of the error raised or 0x00, the
mask of absent fields if the code is `MissingField` and else 0x00, `BUSY` = 0, `DONE` = 1; `ERR` is 1 exactly when the code is
not 0x00. -/
def Obligations.CompletionRecordAlways : Prop :=
  ∀ s : State, s.busy = true → s.mover = .engine → ∃ t, step s = .next t ∧ t.busy = false ∧ t.done = true ∧
    t.errcode = (match decode s.cmd with | .ok i => errorOf i s | .error _ => .unknownCommand) ∧
    t.missing = (if t.errcode = .missingField then ~~~s.present else 0) ∧
    ((memRead 0x001 t).getLsbD 2 = true ↔ memRead 0x002 t ≠ 0x00)

/-- R230, R234, R238: the error a command records is the first cause that holds in the order `InvalidKey`, `BadLength`,
`MissingField`, and `OK` exactly when none holds; an unknown byte records `UnknownCommand`, whatever else holds. First the
codes that `ERRCODE` reads as (R29), all five. -/
def Obligations.ErrorCauses : Prop :=
  (∀ s : State, s.busy = false →
    (s.errcode = .ok → memRead 0x002 s = 0x00) ∧ (s.errcode = .invalidKey → memRead 0x002 s = 0x01) ∧
    (s.errcode = .missingField → memRead 0x002 s = 0x02) ∧ (s.errcode = .unknownCommand → memRead 0x002 s = 0x03) ∧
    (s.errcode = .badLength → memRead 0x002 s = 0x04)) ∧
  (∀ (i : Instr) (s : State), ∃ t, exec i s = .next t ∧ t.errcode = errorOf i s) ∧
  ∀ (s : State) (c : Byte), decode s.cmd = .error (.unknownCommand c) →
    ∃ t, engineStep s = .next t ∧ t.errcode = .unknownCommand

/-- R236: a command that ends in error leaves the state as it was, plus the completion record. -/
def Obligations.ErrorsArePrecise : Prop :=
  ∀ (i : Instr) (s t : State), exec i s = .next t → t.errcode ≠ .ok →
    t = { s with errcode := t.errcode, missing := t.missing, busy := false, done := true }

/-- The frame of every command, by address (from the table of R59, the spec's own inference): a byte outside the completion
record, and outside the registers R59 lists as written (none of them when the command ends in error), reads as before; so do
the reserved addresses, and `WRBUSY`, and what stands outside the block. -/
def Obligations.FrameByAddress : Prop :=
  ∀ (i : Instr) (s t : State), exec i s = .next t →
    (∀ (a : Addr) (r : Reg) (j : Nat), locate a = some (r, j) → r ∉ recordRegs → (t.errcode = .ok → r ∉ writtenBy i) →
      t.byteAt a = s.byteAt a) ∧
    (∀ a, locate a = none → t.byteAt a = s.byteAt a) ∧
    t.wrbusy = s.wrbusy ∧ t.program = s.program ∧ t.turns = s.turns ∧ t.reads = s.reads ∧ t.draws = s.draws

/-- What a command computes depends only on the registers that R59, the spec's own inference, lists as read: two states that
agree on them give the same error and the same bytes in the buffers and length registers written (of `KEY`, the 32 bytes
that `VERIFY` writes), the same `VERIFIED` and `MATCH` where they are written, and of `PRESENT` each bit the same or kept. -/
def Obligations.CommandsReadOnlyTheirOperands : Prop :=
  ∀ (i : Instr) (s s' : State), (∀ r ∈ readsOf i, ∀ j < r.size, s.regByte r j = s'.regByte r j) →
    ∃ t t', exec i s = .next t ∧ exec i s' = .next t' ∧ t.errcode = t'.errcode ∧ t.missing = t'.missing ∧
      (t.errcode = .ok →
        (∀ r ∈ writtenBy i, r ∉ [Reg.status, Reg.present, Reg.vstate] →
          ∀ j < r.size, (r = .key → j < 32) → t.regByte r j = t'.regByte r j) ∧
        (Reg.status ∈ writtenBy i → t.verified = t'.verified ∧ t.matched = t'.matched)) ∧
      ∀ b < 6, t.present.getLsbD b = t'.present.getLsbD b ∨
        (t.present.getLsbD b = s.present.getLsbD b ∧ t'.present.getLsbD b = s'.present.getLsbD b)

/-- Bytes of an operand buffer at and beyond its length have no influence on a result (the spec's own inference, R269): of
`SECRET`, `MSG` and `KEY` for the primitives; of `DATA` for the six sets, and for `CIPHER`, which leaves them. -/
def Obligations.StaleBytesHaveNoInfluence : Prop :=
  (∀ (s : State) (x : Buf 64) (m k : Buf 256),
    (∀ i < s.seclen.toNat, x.get i = s.secret.get i) → (∀ i < s.msglen.val, m.get i = s.msg.get i) →
    (∀ i < s.keylen.val, k.get i = s.key.get i) →
    ∀ i ∈ [Instr.padkey, .derive, .hash, .hmac, .cipher, .cipheri, .ciphero],
      ∃ t, exec i s = .next t ∧
        exec i { s with secret := x, msg := m, key := k } = .next { t with secret := x, msg := m, key := k }) ∧
  ∀ (s : State) (d : Buf 256), (∀ i < s.datalen.val, d.get i = s.data.get i) →
    (∀ i : Instr, i.isSet = true →
      ∃ t, exec i s = .next t ∧ exec i { s with data := d } = .next { t with data := d }) ∧
    ∃ t c, exec .cipher s = .next t ∧ exec .cipher { s with data := d } = .next { t with data := c } ∧
      (∀ i < s.datalen.val, c.get i = t.data.get i) ∧ ∀ i < 256, s.datalen.val ≤ i → c.get i = d.get i

/-! The host's accesses (20_memory.md). -/

/-- R62 with the map of R70: while `BUSY` = 0 a read of a buffer's address returns the buffer's byte, and a read of a control
or length register its byte. -/
def Obligations.IdleReadsFollowTheMap : Prop :=
  ∀ (s : State) (i : Nat), s.busy = false →
    (i < 64 → memRead (BitVec.ofNat 12 (0x040 + i)) s = s.secret.get i ∧
      memRead (BitVec.ofNat 12 (0x080 + i)) s = s.pkey.get i ∧ memRead (BitVec.ofNat 12 (0x0C0 + i)) s = s.ipad.get i ∧
      memRead (BitVec.ofNat 12 (0x100 + i)) s = s.opad.get i ∧ memRead (BitVec.ofNat 12 (0x140 + i)) s = s.kpdiag.get i ∧
      memRead (BitVec.ofNat 12 (0x640 + i)) s = s.eipad.get i ∧ memRead (BitVec.ofNat 12 (0x680 + i)) s = s.eopad.get i) ∧
    (i < 32 → memRead (BitVec.ofNat 12 (0x180 + i)) s = s.inner.get i ∧
      memRead (BitVec.ofNat 12 (0x1A0 + i)) s = s.digest.get i ∧ memRead (BitVec.ofNat 12 (0x620 + i)) s = s.expresp.get i) ∧
    (i < 16 → memRead (BitVec.ofNat 12 (0x600 + i)) s = s.kekh1.get i ∧
      memRead (BitVec.ofNat 12 (0x610 + i)) s = s.kekh2.get i) ∧
    (i < 256 → memRead (BitVec.ofNat 12 (0x200 + i)) s = s.key.get i ∧
      memRead (BitVec.ofNat 12 (0x300 + i)) s = s.data.get i ∧ memRead (BitVec.ofNat 12 (0x400 + i)) s = s.msg.get i ∧
      memRead (BitVec.ofNat 12 (0x500 + i)) s = s.chal.get i) ∧
    memRead 0x000 s = s.cmd ∧ memRead 0x002 s = s.errcode.byte ∧ (memRead 0x003 s).toNat = s.missing.toNat ∧
    (memRead 0x004 s).toNat = s.present.toNat ∧ memRead 0x006 s = s.seclen ∧
    (memRead 0x008 s = s.keylen.lo ∧ memRead 0x009 s = s.keylen.hi ∧ memRead 0x00A s = s.datalen.lo ∧
      memRead 0x00B s = s.datalen.hi ∧ memRead 0x00C s = s.msglen.lo ∧ memRead 0x00D s = s.msglen.hi ∧
      memRead 0x00E s = s.challen.lo ∧ memRead 0x00F s = s.challen.hi)

/-- R71: reserved addresses read as 0x00 while `BUSY` = 0 and ignore writes; bits 7:6 of `STATUS`, `MISSING`, `PRESENT` read
as 0. -/
def Obligations.ReservedReadsZero : Prop :=
  ∀ s : State, s.busy = false →
    (∀ (a : Addr) (v : Byte), reserved a.toNat = true → memRead a s = 0 ∧ memWrite a v s = s) ∧
    ∀ a ∈ [0x001#12, 0x003#12, 0x004#12], (memRead a s).extractLsb' 6 2 = 0

/-- R22, R25: the bits of `STATUS` while `BUSY` = 0, `ERR` being 1 exactly when `ERRCODE` is not 0x00. -/
def Obligations.StatusBits : Prop :=
  ∀ s : State, s.busy = false → ∀ v, memRead 0x001 s = v →
    v.getLsbD 0 = false ∧ v.getLsbD 1 = s.done ∧ (v.getLsbD 2 = true ↔ memRead 0x002 s ≠ 0x00) ∧
    v.getLsbD 3 = s.verified ∧ v.getLsbD 4 = s.matched ∧ v.getLsbD 5 = s.wrbusy ∧ v.getLsbD 6 = false ∧ v.getLsbD 7 = false

/-- R39: what `VSTATE` reads as. -/
def Obligations.VstateValues : Prop :=
  ∀ s : State, s.busy = false → memRead 0x005 s =
    if s.verified = true ∧ s.matched = true then 3
    else if s.verified = true ∧ s.matched = false then 4
    else if s.verified = false ∧ s.present = 0b111111 then 2
    else if s.verified = false ∧ s.present = 0b000000 then 0
    else 1

/-- While `BUSY` = 1 (R65): `CMD` reads as the accepted code; of `STATUS` the bits 0, 1, 5 and 7:6 are as R65 says. Of every
other byte nothing is stated: it is a free value (log 5). -/
def Obligations.BusyReads : Prop :=
  ∀ s : State, s.busy = true →
    memRead 0x000 s = s.cmd ∧
    ∀ v, memRead 0x001 s = v → v.getLsbD 0 = true ∧ v.getLsbD 1 = false ∧ v.getLsbD 5 = s.wrbusy ∧ v.getLsbD 6 = false ∧
      v.getLsbD 7 = false

/-- R62: a read, busy or not, changes no register and no buffer of the block: only the host's own record of it grows
(the model's choice, log 6). -/
def Obligations.ReadsChangeNothing : Prop :=
  ∀ (s : State) (a : Addr) (rest : List Access), s.mover = .host → s.program = .rd a :: rest →
    ∃ t, step s = .next t ∧ t.block = s.block ∧ t.program = rest ∧ t.reads = (a, memRead a s) :: s.reads

/-- R63, R64, R91: a write. While `BUSY` = 0: `CMD` accepts a command, whatever the byte; `STATUS` with bit 5 set clears
`WRBUSY`; a read-write byte takes the value and no other byte changes, nor what stands outside the block; a read-only or
reserved address takes nothing. While `BUSY` = 1 any write, to any address, changes nothing except that it sets `WRBUSY`. -/
def Obligations.HostWriteEffect : Prop :=
  ∀ (s : State) (a : Addr) (v : Byte),
    (s.busy = true → memWrite a v s = { s with wrbusy := true }) ∧
    (s.busy = false → a = 0x000 → memWrite a v s = { s with cmd := v, busy := true, done := false }) ∧
    (s.busy = false → a = 0x001 → memWrite a v s = if v.getLsbD 5 = true then { s with wrbusy := false } else s) ∧
    (s.busy = false → storedByHost a.toNat = true →
      (∀ b, memRead b (memWrite a v s) = if b = a then v else memRead b s) ∧
      (memWrite a v s).program = s.program ∧ (memWrite a v s).turns = s.turns ∧ (memWrite a v s).reads = s.reads ∧
      (memWrite a v s).draws = s.draws) ∧
    (s.busy = false → a ≠ 0x000 → a ≠ 0x001 → storedByHost a.toNat = false → memWrite a v s = s)

/-- The value of a length register (R33), and that `WRLEN` writes it (R102): both bytes keep all their bits. With no turn
decided the host moves while `BUSY` = 0 (the model's choice, log 2). -/
def Obligations.LengthRegisters : Prop :=
  (∀ x : Len16, x.val = x.hi.toNat * 256 + x.lo.toNat) ∧
  ∀ (s : State) (n : Nat), s.busy = false → s.turns = [] → n < 65536 →
    (∃ t, runSteps 2 (s.withProgram [.wrlen .keylen n]) = .next t ∧ t.keylen.val = n ∧ t = { s with keylen := t.keylen }) ∧
    (∃ t, runSteps 2 (s.withProgram [.wrlen .datalen n]) = .next t ∧ t.datalen.val = n ∧ t = { s with datalen := t.datalen }) ∧
    (∃ t, runSteps 2 (s.withProgram [.wrlen .msglen n]) = .next t ∧ t.msglen.val = n ∧ t = { s with msglen := t.msglen })

/-- `WRBUF` of `n` bytes into a read-write buffer leaves them at offsets 0 to n-1 and changes no other byte (R102; with no
turn decided, log 2, the model's choice). -/
def Obligations.WrbufStoresBytes : Prop :=
  ∀ (s : State) (r : Reg) (bs : List Byte), s.busy = false → s.turns = [] → (HostStmt.wrbuf r bs).wellFormed = true →
    ∃ t, runSteps bs.length (s.withProgram [.wrbuf r bs]) = .next t ∧ t.program = s.program ∧ t.busy = false ∧
      (∀ i < bs.length, memRead (r.addr i) t = bs.getD i 0) ∧
      ∀ a, (∀ i < bs.length, a ≠ r.addr i) → memRead a t = memRead a s

/-- `RUN mnemonic` (R102) with no turn decided, so that the engine moves at once (the model's choice, log 2): the command is
accepted, the engine performs it on the state the host left, and the next `RD STATUS` finds `BUSY` = 0. -/
def Obligations.RunPerformsCommand : Prop :=
  ∀ (s : State) (i : Instr), s.busy = false → s.turns = [] →
    ∃ t u, exec i { s with cmd := encode i, busy := true, done := false } = .next t ∧
      runSteps 3 (s.withProgram [.run i]) = .next u ∧ u.block = t.block ∧ u.program = s.program

/-- Every run of a host program, under every schedule, comes to its end: the host has performed its last access and `BUSY` = 0
(R272; weak fairness, R66, in the model's form, log 2). -/
def Obligations.EveryRunEnds : Prop := ∀ s : State, ∃ n t, runSteps n s = .next t ∧ t.ended

/-- R266: a program that waits after every command never loses a write, under any schedule without a reset. The wait is the
`WAIT` of R102; a program that polls by `RD STATUS` is a fixed list of accesses and is not covered. -/
def Obligations.DisciplinedLosesNoWrite : Prop :=
  ∀ (s t : State) (n : Nat), s.busy = false → s.wrbusy = false → disciplined s.program = true → Turn.reset ∉ s.turns →
    runSteps n s = .next t → t.wrbusy = false

/-- R272: two runs of one program from one start state have the same end state whenever the program obeys R266, however the
host's accesses and the engine's steps are interleaved. Programs that wait by `WAIT` are covered, not those that poll by
`RD STATUS` (a fixed list of accesses). -/
def Obligations.ScheduleDoesNotMatter : Prop :=
  ∀ (s a b : State) (ts us : List Turn) (m n : Nat), s.busy = false → disciplined s.program = true →
    Turn.reset ∉ ts → Turn.reset ∉ us →
    runSteps m { s with turns := ts } = .next a → a.ended → runSteps n { s with turns := us } = .next b → b.ended →
    a.block = b.block
end

