-- ==== Sys2Proof/Laws/AddressMap.lean ====
section
/-! SUPPORT. The address map (R70): its rows do not overlap, and `locate` finds exactly the byte of the row. -/

namespace Sys2Proof

/-- Every register has a row. -/
theorem Reg.mem_all (r : Reg) : r ∈ Reg.all := by cases r <;> decide

theorem Reg.covers_iff (n : Nat) (r : Reg) : r.covers n = true ↔ r.base ≤ n ∧ n < r.base + r.size := by
  simp [Reg.covers]

/-- Every register lies below the end of the address space. -/
theorem Reg.in_space (r : Reg) : r.base + r.size ≤ 4096 := by cases r <;> decide

/-- Whether two rows lie apart. -/
def Reg.apart (r q : Reg) : Bool := r.base + r.size ≤ q.base || q.base + q.size ≤ r.base

/-- The rows of R70 do not overlap. -/
theorem Reg.all_apart : ∀ r ∈ Reg.all, ∀ q ∈ Reg.all, r = q ∨ r.apart q = true := by decide

theorem Reg.eq_of_covers {r q : Reg} {n : Nat} (hr : r.covers n = true) (hq : q.covers n = true) : r = q := by
  rcases Reg.all_apart r r.mem_all q q.mem_all with h | h
  · exact h
  · rw [Reg.covers_iff] at hr hq
    simp only [Reg.apart, Bool.or_eq_true, decide_eq_true_eq] at h
    omega

/-- `locate` answers a register that covers the address, with the offset in it. -/
theorem locate_some {a : Addr} {r : Reg} {i : Nat} (h : locate a = some (r, i)) :
    a.toNat = r.base + i ∧ i < r.size := by
  obtain ⟨q, hq, he⟩ := Option.map_eq_some_iff.mp h
  have hc := (Reg.covers_iff _ _).mp (List.find?_some hq)
  cases he
  omega

/-- The address of byte `i` of a register is at that byte. -/
@[simp] theorem locate_addr (r : Reg) {i : Nat} (h : i < r.size) : locate (r.addr i) = some (r, i) := by
  have hs := r.in_space
  have ht : (r.addr i).toNat = r.base + i := by
    simp only [Reg.addr, BitVec.toNat_ofNat]
    exact Nat.mod_eq_of_lt (by omega)
  have hc : r.covers (r.addr i).toNat = true := by rw [ht, Reg.covers_iff]; omega
  cases hf : Reg.all.find? (Reg.covers (r.addr i).toNat) with
  | none => exact absurd hc (by simpa using List.find?_eq_none.mp hf r r.mem_all)
  | some q =>
    have : r = q := Reg.eq_of_covers hc (List.find?_some hf)
    rw [locate, hf, ← this]
    simp [ht]

/-- An address that `locate` places is the address of that byte. -/
theorem eq_addr_of_locate {a : Addr} {r : Reg} {i : Nat} (h : locate a = some (r, i)) : a = r.addr i := by
  obtain ⟨h1, h2⟩ := locate_some h
  have hs := r.in_space
  apply BitVec.eq_of_toNat_eq
  rw [Reg.addr, BitVec.toNat_ofNat, Nat.mod_eq_of_lt (by omega), h1]

end Sys2Proof
end

