-- ==== Sys2Proof/Laws/Buffers.lean ====
section
/-! SUPPORT. What the buffer operations of Machine/Ops.lean do, byte by byte: later proofs cite these and do not unfold. -/

namespace Sys2Proof

theorem Buf.get_eq_getElem {n : Nat} (b : Buf n) {i : Nat} (h : i < n) : b.get i = b[i] := by
  simp [Buf.get, List.getD_eq_getElem?_getD, h]

/-- No byte behind the end (R70). -/
theorem Buf.get_of_le {n : Nat} (b : Buf n) {i : Nat} (h : n ≤ i) : b.get i = 0 := by
  simp [Buf.get, List.getD_eq_getElem?_getD, h]

/-- Two buffers with the same bytes are the same buffer. -/
theorem Buf.ext_get {n : Nat} {a b : Buf n} (h : ∀ i < n, a.get i = b.get i) : a = b := by
  apply Vector.ext
  intro i hi
  rw [← Buf.get_eq_getElem a hi, ← Buf.get_eq_getElem b hi, h i hi]

@[simp] theorem Buf.get_rep {n : Nat} (i : Nat) : (Buf.rep n 0).get i = 0 := by
  by_cases h : i < n
  · simp [Buf.get_eq_getElem _ h]
  · simp [Buf.get_of_le _ (Nat.le_of_not_lt h)]

theorem Buf.get_rep_lt {n : Nat} (v : Byte) {i : Nat} (h : i < n) : (Buf.rep n v).get i = v := by
  simp [Buf.get_eq_getElem _ h]

@[simp] theorem Buf.bytes_length {n : Nat} (b : Buf n) : b.bytes.length = n := by simp [Buf.bytes]

theorem Buf.bytes_getD {n : Nat} (b : Buf n) (i : Nat) : b.bytes.getD i 0 = b.get i := rfl

/-- Two buffers with the same string of bytes are the same buffer. -/
theorem Buf.bytes_inj {n : Nat} {a b : Buf n} (h : a.bytes = b.bytes) : a = b :=
  Buf.ext_get fun i _ => by rw [← Buf.bytes_getD, ← Buf.bytes_getD, h]

@[simp] theorem Buf.slice_length {n : Nat} (b : Buf n) (lo hi : Nat) : (b.slice lo hi).length = min hi n - lo := by
  simp [Buf.slice]

/-- Byte `j` of `B[lo..hi)` is `B[lo+j]` (R8). -/
theorem Buf.slice_getD {n : Nat} (b : Buf n) {lo hi j : Nat} (h : lo + j < hi) :
    (b.slice lo hi).getD j 0 = b.get (lo + j) := by
  simp [Buf.slice, Buf.get, List.getD_eq_getElem?_getD, List.getElem?_drop, h]

/-- `B[0..n)` of a buffer of `n` bytes is all of it. -/
@[simp] theorem Buf.slice_all {n : Nat} (b : Buf n) : b.slice 0 n = b.bytes := by
  simp [Buf.slice, Buf.bytes, List.take_of_length_le]

/-- `B[0..k)` is the bytes at the offsets below `k`, in order (R8). -/
theorem Buf.slice_eq_map {n : Nat} (b : Buf n) {k : Nat} (h : k ≤ n) : b.slice 0 k = (List.range k).map b.get := by
  apply List.ext_getElem
  · simp [h]
  · intro i h1 h2
    simp only [List.length_map, List.length_range] at h2
    have hs := Buf.slice_getD b (lo := 0) (hi := k) (j := i) (by omega)
    rw [List.getD_eq_getElem _ _ h1, Nat.zero_add] at hs
    simp [hs]

theorem Buf.put_toList {n : Nat} (b : Buf n) (lo : Nat) (s : List Byte) :
    (b.put lo s).toList = (b.toList.take lo ++ (s ++ b.toList.drop (lo + s.length))).take n := by
  simp [Buf.put, Vector.toList]

/-- What `B[lo..lo+|s|) <- s` leaves at offset `i`: the byte of `s` in the range, the old byte outside it (R10). -/
theorem Buf.get_put {n : Nat} (b : Buf n) {lo : Nat} (s : List Byte) (hlo : lo ≤ n) (i : Nat) :
    (b.put lo s).get i = if i < n ∧ lo ≤ i ∧ i < lo + s.length then s.getD (i - lo) 0 else b.get i := by
  by_cases hi : i < n
  · have ht : (b.toList.take lo).length = lo := by simp [hlo]
    simp only [Buf.get, Buf.put_toList, List.getD_eq_getElem?_getD, List.getElem?_take_of_lt hi, hi, true_and]
    by_cases h1 : lo ≤ i
    · rw [List.getElem?_append_right (by omega), ht]
      by_cases h2 : i < lo + s.length
      · rw [List.getElem?_append_left (by omega), if_pos ⟨h1, h2⟩]
      · rw [List.getElem?_append_right (by omega), if_neg (by omega), List.getElem?_drop]
        congr 2
        omega
    · rw [List.getElem?_append_left (by omega), if_neg (by omega), List.getElem?_take_of_lt (by omega)]
  · simp [Buf.get_of_le _ (Nat.le_of_not_lt hi), hi]

/-- Writing a whole buffer's worth of bytes at offset 0 replaces the buffer. -/
@[simp] theorem Buf.bytes_put_full {n : Nat} (b : Buf n) (s : List Byte) (h : s.length = n) : (b.put 0 s).bytes = s := by
  simp [Buf.bytes, Buf.put, h]

/-- Writing back a buffer's own prefix changes nothing. -/
theorem Buf.put_slice_self {n : Nat} (b : Buf n) (hi : Nat) : b.put 0 (b.slice 0 hi) = b := by
  apply Buf.ext_get
  intro i hin
  rw [Buf.get_put b _ (Nat.zero_le n)]
  split
  · rename_i h
    have : i < hi := by have := h.2.2; simp at this; omega
    rw [Nat.sub_zero, Buf.slice_getD b (by omega), Nat.zero_add]
  · rfl

/-- What `B[i] <- v` leaves (R10). -/
theorem Buf.get_set {n : Nat} (b : Buf n) (i : Nat) (v : Byte) (j : Nat) :
    (b.set i v).get j = if i = j ∧ j < n then v else b.get j := by
  simp only [Buf.get, Buf.set, List.getD_eq_getElem?_getD, Vector.toList_setIfInBounds, List.getElem?_set,
    Vector.length_toList]
  by_cases h : i = j
  · subst h
    by_cases hn : i < n
    · simp [hn]
    · simp [hn]
  · simp [h]

/-- `XOR` byte by byte (R120). -/
@[simp] theorem Buf.get_xor {n : Nat} (s t : Buf n) (i : Nat) : (s.xor t).get i = s.get i ^^^ t.get i := by
  by_cases h : i < n
  · simp [Buf.get, Buf.xor, xorBytes, List.getD_eq_getElem?_getD, h]
  · simp [Buf.get_of_le _ (Nat.le_of_not_lt h)]

@[simp] theorem xorBytes_length (s t : List Byte) : (xorBytes s t).length = min s.length t.length := by
  simp [xorBytes]

end Sys2Proof
end

