-- ==== Sys2Proof/Laws/Cipher.lean ====
section
/-! SUPPORT. The stream cipher (44_cipher.md): lengths, the swap, and the two phases step by step: the
key schedule after `n` iterations, generation after `n` bytes, and the keystream byte at `n`. -/

namespace Sys2Proof.Machine

/-- Generation answers one byte per data byte (R182). -/
@[simp] theorem generate_length (i j : Byte) (S : Perm) (d : List Byte) : (generate i j S d).length = d.length := by
  induction d generalizing i j S with
  | nil => rfl
  | cons b ds ih => simp [generate, ih]

@[simp] theorem sc_length (k : CipherKey) (d : List Byte) : (sc k d).length = d.length := generate_length ..

@[simp] theorem sc_nil (k : CipherKey) : sc k [] = [] := rfl

/-- Enciphering a pad register replaces all of it by the cipher's output (R186, R187). -/
@[simp] theorem scPad_bytes (k : CipherKey) (p : Buf Config.block) : (scPad k p).bytes = sc k p.bytes := by
  rw [scPad, Buf.bytes_put_full _ _ (by simp)]

/-- The bytes of a permutation after a swap (R181): the two places exchange their bytes, the others keep theirs. -/
theorem permAt_permSwap (S : Perm) (i j x : Byte) :
    permAt (permSwap S i j) x = if x = j then permAt S i else if x = i then permAt S j else permAt S x := by
  have key : ∀ y : Byte, (y.toNat = x.toNat) = (x = y) := fun y => by
    rw [eq_comm (a := x), BitVec.toNat_inj]
  simp only [permAt, permSwap, Vector.getElem_set, key]

@[simp] theorem permAt_identity (x : Byte) : permAt permIdentity x = x := by simp [permAt, permIdentity]

/-- Entry `x` of a permutation, both as numbers. -/
def permNat (S : Perm) (x : Nat) : Nat := (permAt S (BitVec.ofNat 8 x)).toNat

@[simp] theorem permNat_lt (S : Perm) (x : Nat) : permNat S x < 256 := (permAt S _).isLt

@[simp] theorem permNat_toNat (S : Perm) (b : Byte) : permNat S b.toNat = (permAt S b).toNat := by simp [permNat]

/-- The swap on numbers (R181, R182). -/
theorem permNat_permSwap (S : Perm) (i j : Byte) : Swapped (permNat S) (permNat (permSwap S i j)) i.toNat j.toNat := by
  refine ⟨?_, ?_, fun x hx hi hj => ?_⟩
  · simp only [permNat_toNat, permAt_permSwap, if_true]
    split
    · rename_i h; rw [h]
    · rfl
  · simp only [permNat_toNat, permAt_permSwap, if_true]
  · have hb : ∀ b : Byte, x ≠ b.toNat → BitVec.ofNat 8 x ≠ b := fun b h e => h (by rw [← e, BitVec.toNat_ofNat]; omega)
    simp only [permNat, permAt_permSwap, if_neg (hb i hi), if_neg (hb j hj)]

/-- A swap keeps the entries distinct. -/
theorem permSwap_injective {S : Perm} (h : ∀ x y, permAt S x = permAt S y → x = y) (i j x y : Byte)
    (e : permAt (permSwap S i j) x = permAt (permSwap S i j) y) : x = y := by
  simp only [permAt_permSwap] at e
  split at e <;> split at e <;> (try split at e) <;> (try split at e) <;> have := h _ _ e <;> simp_all

/-- The key schedule's `(j, S)` after `n` iterations (R181). -/
def keyRun (k : CipherKey) (n : Nat) : Byte × Perm := (List.range n).foldl (keyStep k) (0, permIdentity)

@[simp] theorem keyRun_zero (k : CipherKey) : keyRun k 0 = (0, permIdentity) := rfl

theorem keyRun_succ (k : CipherKey) (n : Nat) : keyRun k (n + 1) = keyStep k (keyRun k n) n := by
  simp [keyRun, List.range_succ]

theorem keySchedule_eq_keyRun (k : CipherKey) : keySchedule k = (keyRun k 256).2 := rfl

/-- "`S` stays a permutation throughout" (R181). -/
theorem keyRun_injective (k : CipherKey) (n : Nat) (x y : Byte) (e : permAt (keyRun k n).2 x = permAt (keyRun k n).2 y) :
    x = y := by
  induction n generalizing x y with
  | zero => simpa using e
  | succ n ih => rw [keyRun_succ] at e; exact permSwap_injective ih _ _ x y e

/-- One step of generation on `(i, j, S)` (R182). -/
def genNext (g : Byte × Byte × Perm) : Byte × Byte × Perm :=
  let j := g.2.1 + permAt g.2.2 (g.1 + 1)
  (g.1 + 1, j, permSwap g.2.2 (g.1 + 1) j)

/-- The keystream byte of a step, from `(i, j, S)` after it (R182). -/
def genByte (g : Byte × Byte × Perm) : Byte := permAt g.2.2 (permAt g.2.2 g.1 + permAt g.2.2 g.2.1)

/-- Generation's `(i, j, S)` after `n` steps from the permutation `S` (R182). -/
def genRun (S : Perm) : Nat → Byte × Byte × Perm
  | 0 => (0, 0, S)
  | n + 1 => genNext (genRun S n)

theorem genRun_fst (S : Perm) (n : Nat) : (genRun S n).1 = BitVec.ofNat 8 n := by
  induction n with
  | zero => rfl
  | succ n ih => simp only [genRun, genNext, ih, BitVec.ofNat_add]; rfl

theorem generate_getD_from (S : Perm) (m : Nat) (d : List Byte) {n : Nat} (h : n < d.length) :
    (generate (genRun S m).1 (genRun S m).2.1 (genRun S m).2.2 d).getD n 0 = d.getD n 0 ^^^ genByte (genRun S (m + n + 1)) := by
  induction d generalizing m n with
  | nil => simp at h
  | cons b ds ih =>
    cases n with
    | zero => rfl
    | succ n =>
      simp only [List.length_cons, Nat.add_lt_add_iff_right] at h
      have e := ih (m + 1) h
      rw [show m + 1 + n + 1 = m + (n + 1) + 1 by omega] at e
      exact e

/-- Each byte of `SC` is the data byte XOR the keystream byte of its place (R183). -/
theorem sc_getD (k : CipherKey) (d : List Byte) {n : Nat} (h : n < d.length) :
    (sc k d).getD n 0 = d.getD n 0 ^^^ genByte (genRun (keySchedule k) (n + 1)) := by
  have := generate_getD_from (keySchedule k) 0 d h
  rwa [Nat.zero_add] at this

end Sys2Proof.Machine
end

