-- ==== Sys2Proof/Laws/CipherTree.lean ====
section
/-! SUPPORT. The stream cipher over a binary tree of bytes, equal to the model's cipher over a vector: the form in which the
kernel evaluates a key schedule quickly. -/

namespace Sys2Proof.Machine

/-- A binary tree of bytes; entry `i` is found by the bits of `i`, lowest first. -/
inductive ByteTree where
  | leaf (b : Byte)
  | node (even odd : ByteTree)

def treeGet : ByteTree → Nat → Byte
  | .leaf b, _ => b
  | .node l r, i => if i % 2 = 0 then treeGet l (i / 2) else treeGet r (i / 2)

def treeSet : ByteTree → Nat → Byte → ByteTree
  | .leaf _, _, v => .leaf v
  | .node l r, i, v => if i % 2 = 0 then .node (treeSet l (i / 2) v) r else .node l (treeSet r (i / 2) v)

def treeOf : Nat → (Nat → Byte) → ByteTree
  | 0, f => .leaf (f 0)
  | n + 1, f => .node (treeOf n fun i => f (2 * i)) (treeOf n fun i => f (2 * i + 1))

/-- All leaves lie at depth `d`. -/
def treeFull : Nat → ByteTree → Prop
  | 0, .leaf _ => True
  | n + 1, .node l r => treeFull n l ∧ treeFull n r
  | 0, .node _ _ => False
  | _ + 1, .leaf _ => False

theorem treeOf_full (n : Nat) (f : Nat → Byte) : treeFull n (treeOf n f) := by
  induction n generalizing f with
  | zero => trivial
  | succ n ih => exact ⟨ih _, ih _⟩

theorem treeGet_treeOf (n : Nat) (f : Nat → Byte) {i : Nat} (h : i < 2 ^ n) : treeGet (treeOf n f) i = f i := by
  induction n generalizing f i with
  | zero => simp at h; simp [treeOf, treeGet, h]
  | succ n ih =>
    have hi : i / 2 < 2 ^ n := by omega
    simp only [treeOf, treeGet]
    split
    · rw [ih _ hi]; congr 1; omega
    · rw [ih _ hi]; congr 1; omega

theorem treeSet_full {n : Nat} {t : ByteTree} (h : treeFull n t) (i : Nat) (v : Byte) : treeFull n (treeSet t i v) := by
  induction n generalizing t i with
  | zero => cases t <;> simp_all [treeFull, treeSet]
  | succ n ih =>
    cases t with
    | leaf => exact h.elim
    | node l r =>
      simp only [treeSet]
      split
      · exact ⟨ih h.1 _, h.2⟩
      · exact ⟨h.1, ih h.2 _⟩

theorem treeGet_treeSet {n : Nat} {t : ByteTree} (h : treeFull n t) {i j : Nat} (hi : i < 2 ^ n) (hj : j < 2 ^ n) (v : Byte) :
    treeGet (treeSet t i v) j = if j = i then v else treeGet t j := by
  induction n generalizing t i j with
  | zero =>
    cases t with
    | node => exact h.elim
    | leaf b => simp at hi hj; simp [treeSet, treeGet, hi, hj]
  | succ n ih =>
    cases t with
    | leaf => exact h.elim
    | node l r =>
      have hi2 : i / 2 < 2 ^ n := by omega
      have hj2 : j / 2 < 2 ^ n := by omega
      by_cases e : i % 2 = 0 <;> by_cases f : j % 2 = 0 <;> simp only [treeSet, treeGet, e, f, if_true, if_false]
      · rw [ih h.1 hi2 hj2]; congr 1; simp only [eq_iff_iff]; omega
      · rw [if_neg (by omega)]
      · rw [if_neg (by omega)]
      · rw [ih h.2 hi2 hj2]; congr 1; simp only [eq_iff_iff]; omega

/-- The tree holds the permutation. -/
def treeHolds (t : ByteTree) (S : Perm) : Prop := treeFull 8 t ∧ ∀ x : Byte, treeGet t x.toNat = permAt S x

def treeSwap (t : ByteTree) (i j : Byte) : ByteTree :=
  treeSet (treeSet t i.toNat (treeGet t j.toNat)) j.toNat (treeGet t i.toNat)

theorem treeSwap_holds {t : ByteTree} {S : Perm} (h : treeHolds t S) (i j : Byte) :
    treeHolds (treeSwap t i j) (permSwap S i j) := by
  have key : ∀ y z : Byte, (y.toNat = z.toNat) = (y = z) := fun y z => by rw [BitVec.toNat_inj]
  refine ⟨treeSet_full (treeSet_full h.1 _ _) _ _, fun x => ?_⟩
  rw [treeSwap, treeGet_treeSet (treeSet_full h.1 _ _) j.isLt x.isLt, treeGet_treeSet h.1 i.isLt x.isLt,
    permAt_permSwap, h.2, h.2, h.2]
  simp only [key]

/-- The key schedule's step, over the tree. -/
def treeKeyStep (k : CipherKey) (jt : Byte × ByteTree) (i : Nat) : Byte × ByteTree :=
  let i8 := BitVec.ofNat 8 i
  let j := jt.1 + treeGet jt.2 i8.toNat + k.at i
  (j, treeSwap jt.2 i8 j)

def treeSchedule (k : CipherKey) : ByteTree :=
  ((List.range 256).foldl (treeKeyStep k) (0, treeOf 8 (BitVec.ofNat 8))).2

theorem foldl_treeKeyStep (k : CipherKey) (is : List Nat) {j : Byte} {t : ByteTree} {S : Perm} (h : treeHolds t S) :
    (is.foldl (treeKeyStep k) (j, t)).1 = (is.foldl (keyStep k) (j, S)).1 ∧
    treeHolds (is.foldl (treeKeyStep k) (j, t)).2 (is.foldl (keyStep k) (j, S)).2 := by
  induction is generalizing j t S with
  | nil => exact ⟨rfl, h⟩
  | cons i is ih =>
    simp only [List.foldl_cons, treeKeyStep, keyStep, h.2]
    exact ih (treeSwap_holds h _ _)

theorem treeSchedule_holds (k : CipherKey) : treeHolds (treeSchedule k) (keySchedule k) :=
  (foldl_treeKeyStep k _
    ⟨treeOf_full 8 _, fun x => by rw [treeGet_treeOf 8 _ x.isLt, permAt_identity]; simp⟩).2

def treeGenerate (i j : Byte) (t : ByteTree) : List Byte → List Byte
  | [] => []
  | d :: ds =>
    let i' := i + 1
    let j' := j + treeGet t i'.toNat
    let t' := treeSwap t i' j'
    (d ^^^ treeGet t' (treeGet t' i'.toNat + treeGet t' j'.toNat).toNat) :: treeGenerate i' j' t' ds

theorem treeGenerate_eq (d : List Byte) {i j : Byte} {t : ByteTree} {S : Perm} (h : treeHolds t S) :
    treeGenerate i j t d = generate i j S d := by
  induction d generalizing i j t S with
  | nil => rfl
  | cons b ds ih =>
    have h' := treeSwap_holds h (i + 1) (j + permAt S (i + 1))
    simp only [treeGenerate, generate, h.2, h'.2, ih h']

/-- `SC` over the tree. -/
def treeSc (k : CipherKey) (d : List Byte) : List Byte := treeGenerate 0 0 (treeSchedule k) d

/-- The tree form computes `SC` (R183). -/
theorem sc_eq_treeSc (k : CipherKey) (d : List Byte) : sc k d = treeSc k d :=
  (treeGenerate_eq d (treeSchedule_holds k)).symm

end Sys2Proof.Machine
end

