-- ==== Sys2Proof/Laws/Operands.lean ====
section
/-! SUPPORT. What each operand form answers: the string, or the error of its length. -/

namespace Sys2Proof.Machine

variable {s : State}

theorem msgOperand_ok (h : s.msglen.val ≤ Config.msgMax) : s.msgOperand = .ok (s.msg.slice 0 s.msglen.val) :=
  if_neg (Nat.not_lt.mpr h)

theorem msgOperand_long (h : Config.msgMax < s.msglen.val) : s.msgOperand = .error .badLength := if_pos h

theorem dataOperand_ok (h : s.datalen.val ≤ Config.dataMax) : s.dataOperand = .ok (s.data.slice 0 s.datalen.val) :=
  if_neg (Nat.not_lt.mpr h)

theorem dataOperand_long (h : Config.dataMax < s.datalen.val) : s.dataOperand = .error .badLength := if_pos h

theorem stagedField_ok {w : Nat} (h : s.datalen.val = w) : s.stagedField w = .ok (s.data.slice 0 w) :=
  if_neg (not_not.mpr h)

theorem stagedField_wrong {w : Nat} (h : s.datalen.val ≠ w) : s.stagedField w = .error .badLength := if_pos h

theorem keyOperand_zero (h : s.keylen.val = 0) : s.keyOperand = .error .invalidKey := dif_pos h

theorem keyOperand_long (h : Config.keyMax < s.keylen.val) : s.keyOperand = .error .badLength := by
  rw [State.keyOperand, dif_neg (by simp only [Config.keyMax] at h; omega), dif_pos h]

theorem keyOperand_ok (h0 : 0 < s.keylen.val) (h : s.keylen.val ≤ Config.keyMax) :
    s.keyOperand = .ok (keyOf s.key s.keylen.val h0 h) := by
  rw [State.keyOperand, dif_neg (by omega), dif_neg (Nat.not_lt.mpr h)]

/-- The three outcomes of the key operand (R231, R234). -/
theorem keyOperand_cases (s : State) :
    (s.keylen.val = 0 ∧ s.keyOperand = .error .invalidKey) ∨
    (Config.keyMax < s.keylen.val ∧ s.keyOperand = .error .badLength) ∨
    (∃ (h0 : 0 < s.keylen.val) (h : s.keylen.val ≤ Config.keyMax), s.keyOperand = .ok (keyOf s.key s.keylen.val h0 h)) := by
  rcases Nat.eq_zero_or_pos s.keylen.val with h | h0
  · exact .inl ⟨h, keyOperand_zero h⟩
  · rcases Nat.lt_or_ge Config.keyMax s.keylen.val with h | h
    · exact .inr (.inl ⟨h, keyOperand_long h⟩)
    · exact .inr (.inr ⟨h0, h, keyOperand_ok h0 h⟩)

theorem msgOperand_cases (s : State) :
    (Config.msgMax < s.msglen.val ∧ s.msgOperand = .error .badLength) ∨
    (s.msglen.val ≤ Config.msgMax ∧ s.msgOperand = .ok (s.msg.slice 0 s.msglen.val)) :=
  (Nat.lt_or_ge Config.msgMax s.msglen.val).imp (fun h => ⟨h, msgOperand_long h⟩) fun h => ⟨h, msgOperand_ok h⟩

theorem dataOperand_cases (s : State) :
    (Config.dataMax < s.datalen.val ∧ s.dataOperand = .error .badLength) ∨
    (s.datalen.val ≤ Config.dataMax ∧ s.dataOperand = .ok (s.data.slice 0 s.datalen.val)) :=
  (Nat.lt_or_ge Config.dataMax s.datalen.val).imp (fun h => ⟨h, dataOperand_long h⟩) fun h => ⟨h, dataOperand_ok h⟩

theorem stagedField_cases (s : State) (w : Nat) :
    (s.datalen.val ≠ w ∧ s.stagedField w = .error .badLength) ∨
    (s.datalen.val = w ∧ s.stagedField w = .ok (s.data.slice 0 w)) :=
  (ne_or_eq s.datalen.val w).imp (fun h => ⟨h, stagedField_wrong h⟩) fun h => ⟨h, stagedField_ok h⟩

theorem keyOf_length (b : Buf Config.keyMax) (n : Nat) (h0 : 0 < n) (h : n ≤ Config.keyMax) :
    (keyOf b n h0 h).bytes.length = n := by
  simp only [keyOf, Buf.slice_length]
  omega

@[simp] theorem kek_bytes (s : State) : s.kek.bytes = s.kekh1.bytes ++ s.kekh2.bytes := rfl

/-- The KEK depends on the two halves alone (R210). -/
theorem kek_congr {s t : State} (h1 : s.kekh1 = t.kekh1) (h2 : s.kekh2 = t.kekh2) : s.kek = t.kek := by
  unfold State.kek
  congr 3

theorem kek_length (s : State) : s.kek.bytes.length = 32 := by simp [Config.half]

theorem secretOperand_length (s : State) : s.secretOperand.length = min s.seclen.toNat 64 := by
  simp only [State.secretOperand, Buf.slice_length, Config.secMax]
  omega

end Sys2Proof.Machine
end

