-- ==== Sys2Proof/Laws/State.lean ====
section
/-! SUPPORT. One lemma per field per named update of State, true by rfl, so that no later proof unfolds an update. -/

namespace Sys2Proof.Machine

variable (s : State)


/-! `State.complete` -/

section
variable (e : ErrCode) (m : BitVec 6)
@[simp] theorem complete_cmd : (s.complete e m).cmd = s.cmd := rfl
@[simp] theorem complete_busy : (s.complete e m).busy = false := rfl
@[simp] theorem complete_done : (s.complete e m).done = true := rfl
@[simp] theorem complete_verified : (s.complete e m).verified = s.verified := rfl
@[simp] theorem complete_matched : (s.complete e m).matched = s.matched := rfl
@[simp] theorem complete_wrbusy : (s.complete e m).wrbusy = s.wrbusy := rfl
@[simp] theorem complete_errcode : (s.complete e m).errcode = e := rfl
@[simp] theorem complete_missing : (s.complete e m).missing = m := rfl
@[simp] theorem complete_present : (s.complete e m).present = s.present := rfl
@[simp] theorem complete_seclen : (s.complete e m).seclen = s.seclen := rfl
@[simp] theorem complete_keylen : (s.complete e m).keylen = s.keylen := rfl
@[simp] theorem complete_datalen : (s.complete e m).datalen = s.datalen := rfl
@[simp] theorem complete_msglen : (s.complete e m).msglen = s.msglen := rfl
@[simp] theorem complete_challen : (s.complete e m).challen = s.challen := rfl
@[simp] theorem complete_secret : (s.complete e m).secret = s.secret := rfl
@[simp] theorem complete_pkey : (s.complete e m).pkey = s.pkey := rfl
@[simp] theorem complete_ipad : (s.complete e m).ipad = s.ipad := rfl
@[simp] theorem complete_opad : (s.complete e m).opad = s.opad := rfl
@[simp] theorem complete_kpdiag : (s.complete e m).kpdiag = s.kpdiag := rfl
@[simp] theorem complete_inner : (s.complete e m).inner = s.inner := rfl
@[simp] theorem complete_digest : (s.complete e m).digest = s.digest := rfl
@[simp] theorem complete_key : (s.complete e m).key = s.key := rfl
@[simp] theorem complete_data : (s.complete e m).data = s.data := rfl
@[simp] theorem complete_msg : (s.complete e m).msg = s.msg := rfl
@[simp] theorem complete_chal : (s.complete e m).chal = s.chal := rfl
@[simp] theorem complete_kekh1 : (s.complete e m).kekh1 = s.kekh1 := rfl
@[simp] theorem complete_kekh2 : (s.complete e m).kekh2 = s.kekh2 := rfl
@[simp] theorem complete_expresp : (s.complete e m).expresp = s.expresp := rfl
@[simp] theorem complete_eipad : (s.complete e m).eipad = s.eipad := rfl
@[simp] theorem complete_eopad : (s.complete e m).eopad = s.eopad := rfl
@[simp] theorem complete_program : (s.complete e m).program = s.program := rfl
@[simp] theorem complete_turns : (s.complete e m).turns = s.turns := rfl
@[simp] theorem complete_reads : (s.complete e m).reads = s.reads := rfl
@[simp] theorem complete_draws : (s.complete e m).draws = s.draws := rfl
end

/-! `State.accept` -/

section
variable (c : Byte)
@[simp] theorem accept_cmd : (s.accept c).cmd = c := rfl
@[simp] theorem accept_busy : (s.accept c).busy = true := rfl
@[simp] theorem accept_done : (s.accept c).done = false := rfl
@[simp] theorem accept_verified : (s.accept c).verified = s.verified := rfl
@[simp] theorem accept_matched : (s.accept c).matched = s.matched := rfl
@[simp] theorem accept_wrbusy : (s.accept c).wrbusy = s.wrbusy := rfl
@[simp] theorem accept_errcode : (s.accept c).errcode = s.errcode := rfl
@[simp] theorem accept_missing : (s.accept c).missing = s.missing := rfl
@[simp] theorem accept_present : (s.accept c).present = s.present := rfl
@[simp] theorem accept_seclen : (s.accept c).seclen = s.seclen := rfl
@[simp] theorem accept_keylen : (s.accept c).keylen = s.keylen := rfl
@[simp] theorem accept_datalen : (s.accept c).datalen = s.datalen := rfl
@[simp] theorem accept_msglen : (s.accept c).msglen = s.msglen := rfl
@[simp] theorem accept_challen : (s.accept c).challen = s.challen := rfl
@[simp] theorem accept_secret : (s.accept c).secret = s.secret := rfl
@[simp] theorem accept_pkey : (s.accept c).pkey = s.pkey := rfl
@[simp] theorem accept_ipad : (s.accept c).ipad = s.ipad := rfl
@[simp] theorem accept_opad : (s.accept c).opad = s.opad := rfl
@[simp] theorem accept_kpdiag : (s.accept c).kpdiag = s.kpdiag := rfl
@[simp] theorem accept_inner : (s.accept c).inner = s.inner := rfl
@[simp] theorem accept_digest : (s.accept c).digest = s.digest := rfl
@[simp] theorem accept_key : (s.accept c).key = s.key := rfl
@[simp] theorem accept_data : (s.accept c).data = s.data := rfl
@[simp] theorem accept_msg : (s.accept c).msg = s.msg := rfl
@[simp] theorem accept_chal : (s.accept c).chal = s.chal := rfl
@[simp] theorem accept_kekh1 : (s.accept c).kekh1 = s.kekh1 := rfl
@[simp] theorem accept_kekh2 : (s.accept c).kekh2 = s.kekh2 := rfl
@[simp] theorem accept_expresp : (s.accept c).expresp = s.expresp := rfl
@[simp] theorem accept_eipad : (s.accept c).eipad = s.eipad := rfl
@[simp] theorem accept_eopad : (s.accept c).eopad = s.eopad := rfl
@[simp] theorem accept_program : (s.accept c).program = s.program := rfl
@[simp] theorem accept_turns : (s.accept c).turns = s.turns := rfl
@[simp] theorem accept_reads : (s.accept c).reads = s.reads := rfl
@[simp] theorem accept_draws : (s.accept c).draws = s.draws := rfl
end

/-! `State.popTurn` -/

@[simp] theorem popTurn_cmd : s.popTurn.cmd = s.cmd := rfl
@[simp] theorem popTurn_busy : s.popTurn.busy = s.busy := rfl
@[simp] theorem popTurn_done : s.popTurn.done = s.done := rfl
@[simp] theorem popTurn_verified : s.popTurn.verified = s.verified := rfl
@[simp] theorem popTurn_matched : s.popTurn.matched = s.matched := rfl
@[simp] theorem popTurn_wrbusy : s.popTurn.wrbusy = s.wrbusy := rfl
@[simp] theorem popTurn_errcode : s.popTurn.errcode = s.errcode := rfl
@[simp] theorem popTurn_missing : s.popTurn.missing = s.missing := rfl
@[simp] theorem popTurn_present : s.popTurn.present = s.present := rfl
@[simp] theorem popTurn_seclen : s.popTurn.seclen = s.seclen := rfl
@[simp] theorem popTurn_keylen : s.popTurn.keylen = s.keylen := rfl
@[simp] theorem popTurn_datalen : s.popTurn.datalen = s.datalen := rfl
@[simp] theorem popTurn_msglen : s.popTurn.msglen = s.msglen := rfl
@[simp] theorem popTurn_challen : s.popTurn.challen = s.challen := rfl
@[simp] theorem popTurn_secret : s.popTurn.secret = s.secret := rfl
@[simp] theorem popTurn_pkey : s.popTurn.pkey = s.pkey := rfl
@[simp] theorem popTurn_ipad : s.popTurn.ipad = s.ipad := rfl
@[simp] theorem popTurn_opad : s.popTurn.opad = s.opad := rfl
@[simp] theorem popTurn_kpdiag : s.popTurn.kpdiag = s.kpdiag := rfl
@[simp] theorem popTurn_inner : s.popTurn.inner = s.inner := rfl
@[simp] theorem popTurn_digest : s.popTurn.digest = s.digest := rfl
@[simp] theorem popTurn_key : s.popTurn.key = s.key := rfl
@[simp] theorem popTurn_data : s.popTurn.data = s.data := rfl
@[simp] theorem popTurn_msg : s.popTurn.msg = s.msg := rfl
@[simp] theorem popTurn_chal : s.popTurn.chal = s.chal := rfl
@[simp] theorem popTurn_kekh1 : s.popTurn.kekh1 = s.kekh1 := rfl
@[simp] theorem popTurn_kekh2 : s.popTurn.kekh2 = s.kekh2 := rfl
@[simp] theorem popTurn_expresp : s.popTurn.expresp = s.expresp := rfl
@[simp] theorem popTurn_eipad : s.popTurn.eipad = s.eipad := rfl
@[simp] theorem popTurn_eopad : s.popTurn.eopad = s.eopad := rfl
@[simp] theorem popTurn_program : s.popTurn.program = s.program := rfl
@[simp] theorem popTurn_turns : s.popTurn.turns = s.turns.tail := rfl
@[simp] theorem popTurn_reads : s.popTurn.reads = s.reads := rfl
@[simp] theorem popTurn_draws : s.popTurn.draws = s.draws := rfl

/-! `State.markSet` -/

section
variable (k : Nat)
@[simp] theorem markSet_cmd : (s.markSet k).cmd = s.cmd := rfl
@[simp] theorem markSet_busy : (s.markSet k).busy = s.busy := rfl
@[simp] theorem markSet_done : (s.markSet k).done = s.done := rfl
@[simp] theorem markSet_verified : (s.markSet k).verified = false := rfl
@[simp] theorem markSet_matched : (s.markSet k).matched = false := rfl
@[simp] theorem markSet_wrbusy : (s.markSet k).wrbusy = s.wrbusy := rfl
@[simp] theorem markSet_errcode : (s.markSet k).errcode = s.errcode := rfl
@[simp] theorem markSet_missing : (s.markSet k).missing = s.missing := rfl
@[simp] theorem markSet_present : (s.markSet k).present = s.present ||| (1#6 <<< k) := rfl
@[simp] theorem markSet_seclen : (s.markSet k).seclen = s.seclen := rfl
@[simp] theorem markSet_keylen : (s.markSet k).keylen = s.keylen := rfl
@[simp] theorem markSet_datalen : (s.markSet k).datalen = s.datalen := rfl
@[simp] theorem markSet_msglen : (s.markSet k).msglen = s.msglen := rfl
@[simp] theorem markSet_challen : (s.markSet k).challen = s.challen := rfl
@[simp] theorem markSet_secret : (s.markSet k).secret = s.secret := rfl
@[simp] theorem markSet_pkey : (s.markSet k).pkey = s.pkey := rfl
@[simp] theorem markSet_ipad : (s.markSet k).ipad = s.ipad := rfl
@[simp] theorem markSet_opad : (s.markSet k).opad = s.opad := rfl
@[simp] theorem markSet_kpdiag : (s.markSet k).kpdiag = s.kpdiag := rfl
@[simp] theorem markSet_inner : (s.markSet k).inner = s.inner := rfl
@[simp] theorem markSet_digest : (s.markSet k).digest = s.digest := rfl
@[simp] theorem markSet_key : (s.markSet k).key = s.key := rfl
@[simp] theorem markSet_data : (s.markSet k).data = s.data := rfl
@[simp] theorem markSet_msg : (s.markSet k).msg = s.msg := rfl
@[simp] theorem markSet_chal : (s.markSet k).chal = s.chal := rfl
@[simp] theorem markSet_kekh1 : (s.markSet k).kekh1 = s.kekh1 := rfl
@[simp] theorem markSet_kekh2 : (s.markSet k).kekh2 = s.kekh2 := rfl
@[simp] theorem markSet_expresp : (s.markSet k).expresp = s.expresp := rfl
@[simp] theorem markSet_eipad : (s.markSet k).eipad = s.eipad := rfl
@[simp] theorem markSet_eopad : (s.markSet k).eopad = s.eopad := rfl
@[simp] theorem markSet_program : (s.markSet k).program = s.program := rfl
@[simp] theorem markSet_turns : (s.markSet k).turns = s.turns := rfl
@[simp] theorem markSet_reads : (s.markSet k).reads = s.reads := rfl
@[simp] theorem markSet_draws : (s.markSet k).draws = s.draws := rfl
end

/-! `State.markVerified` -/

section
variable (q : Bool)
@[simp] theorem markVerified_cmd : (s.markVerified q).cmd = s.cmd := rfl
@[simp] theorem markVerified_busy : (s.markVerified q).busy = s.busy := rfl
@[simp] theorem markVerified_done : (s.markVerified q).done = s.done := rfl
@[simp] theorem markVerified_verified : (s.markVerified q).verified = true := rfl
@[simp] theorem markVerified_matched : (s.markVerified q).matched = q := rfl
@[simp] theorem markVerified_wrbusy : (s.markVerified q).wrbusy = s.wrbusy := rfl
@[simp] theorem markVerified_errcode : (s.markVerified q).errcode = s.errcode := rfl
@[simp] theorem markVerified_missing : (s.markVerified q).missing = s.missing := rfl
@[simp] theorem markVerified_present : (s.markVerified q).present = s.present := rfl
@[simp] theorem markVerified_seclen : (s.markVerified q).seclen = s.seclen := rfl
@[simp] theorem markVerified_keylen : (s.markVerified q).keylen = s.keylen := rfl
@[simp] theorem markVerified_datalen : (s.markVerified q).datalen = s.datalen := rfl
@[simp] theorem markVerified_msglen : (s.markVerified q).msglen = s.msglen := rfl
@[simp] theorem markVerified_challen : (s.markVerified q).challen = s.challen := rfl
@[simp] theorem markVerified_secret : (s.markVerified q).secret = s.secret := rfl
@[simp] theorem markVerified_pkey : (s.markVerified q).pkey = s.pkey := rfl
@[simp] theorem markVerified_ipad : (s.markVerified q).ipad = s.ipad := rfl
@[simp] theorem markVerified_opad : (s.markVerified q).opad = s.opad := rfl
@[simp] theorem markVerified_kpdiag : (s.markVerified q).kpdiag = s.kpdiag := rfl
@[simp] theorem markVerified_inner : (s.markVerified q).inner = s.inner := rfl
@[simp] theorem markVerified_digest : (s.markVerified q).digest = s.digest := rfl
@[simp] theorem markVerified_key : (s.markVerified q).key = s.key := rfl
@[simp] theorem markVerified_data : (s.markVerified q).data = s.data := rfl
@[simp] theorem markVerified_msg : (s.markVerified q).msg = s.msg := rfl
@[simp] theorem markVerified_chal : (s.markVerified q).chal = s.chal := rfl
@[simp] theorem markVerified_kekh1 : (s.markVerified q).kekh1 = s.kekh1 := rfl
@[simp] theorem markVerified_kekh2 : (s.markVerified q).kekh2 = s.kekh2 := rfl
@[simp] theorem markVerified_expresp : (s.markVerified q).expresp = s.expresp := rfl
@[simp] theorem markVerified_eipad : (s.markVerified q).eipad = s.eipad := rfl
@[simp] theorem markVerified_eopad : (s.markVerified q).eopad = s.eopad := rfl
@[simp] theorem markVerified_program : (s.markVerified q).program = s.program := rfl
@[simp] theorem markVerified_turns : (s.markVerified q).turns = s.turns := rfl
@[simp] theorem markVerified_reads : (s.markVerified q).reads = s.reads := rfl
@[simp] theorem markVerified_draws : (s.markVerified q).draws = s.draws := rfl
end

/-! `State.clearFlags` -/

@[simp] theorem clearFlags_cmd : s.clearFlags.cmd = s.cmd := rfl
@[simp] theorem clearFlags_busy : s.clearFlags.busy = s.busy := rfl
@[simp] theorem clearFlags_done : s.clearFlags.done = s.done := rfl
@[simp] theorem clearFlags_verified : s.clearFlags.verified = false := rfl
@[simp] theorem clearFlags_matched : s.clearFlags.matched = false := rfl
@[simp] theorem clearFlags_wrbusy : s.clearFlags.wrbusy = s.wrbusy := rfl
@[simp] theorem clearFlags_errcode : s.clearFlags.errcode = s.errcode := rfl
@[simp] theorem clearFlags_missing : s.clearFlags.missing = s.missing := rfl
@[simp] theorem clearFlags_present : s.clearFlags.present = 0 := rfl
@[simp] theorem clearFlags_seclen : s.clearFlags.seclen = s.seclen := rfl
@[simp] theorem clearFlags_keylen : s.clearFlags.keylen = s.keylen := rfl
@[simp] theorem clearFlags_datalen : s.clearFlags.datalen = s.datalen := rfl
@[simp] theorem clearFlags_msglen : s.clearFlags.msglen = s.msglen := rfl
@[simp] theorem clearFlags_challen : s.clearFlags.challen = s.challen := rfl
@[simp] theorem clearFlags_secret : s.clearFlags.secret = s.secret := rfl
@[simp] theorem clearFlags_pkey : s.clearFlags.pkey = s.pkey := rfl
@[simp] theorem clearFlags_ipad : s.clearFlags.ipad = s.ipad := rfl
@[simp] theorem clearFlags_opad : s.clearFlags.opad = s.opad := rfl
@[simp] theorem clearFlags_kpdiag : s.clearFlags.kpdiag = s.kpdiag := rfl
@[simp] theorem clearFlags_inner : s.clearFlags.inner = s.inner := rfl
@[simp] theorem clearFlags_digest : s.clearFlags.digest = s.digest := rfl
@[simp] theorem clearFlags_key : s.clearFlags.key = s.key := rfl
@[simp] theorem clearFlags_data : s.clearFlags.data = s.data := rfl
@[simp] theorem clearFlags_msg : s.clearFlags.msg = s.msg := rfl
@[simp] theorem clearFlags_chal : s.clearFlags.chal = s.chal := rfl
@[simp] theorem clearFlags_kekh1 : s.clearFlags.kekh1 = s.kekh1 := rfl
@[simp] theorem clearFlags_kekh2 : s.clearFlags.kekh2 = s.kekh2 := rfl
@[simp] theorem clearFlags_expresp : s.clearFlags.expresp = s.expresp := rfl
@[simp] theorem clearFlags_eipad : s.clearFlags.eipad = s.eipad := rfl
@[simp] theorem clearFlags_eopad : s.clearFlags.eopad = s.eopad := rfl
@[simp] theorem clearFlags_program : s.clearFlags.program = s.program := rfl
@[simp] theorem clearFlags_turns : s.clearFlags.turns = s.turns := rfl
@[simp] theorem clearFlags_reads : s.clearFlags.reads = s.reads := rfl
@[simp] theorem clearFlags_draws : s.clearFlags.draws = s.draws := rfl

/-! `State.storeChallenge` -/

section
variable (c : List Byte)
@[simp] theorem storeChallenge_cmd : (s.storeChallenge c).cmd = s.cmd := rfl
@[simp] theorem storeChallenge_busy : (s.storeChallenge c).busy = s.busy := rfl
@[simp] theorem storeChallenge_done : (s.storeChallenge c).done = s.done := rfl
@[simp] theorem storeChallenge_verified : (s.storeChallenge c).verified = s.verified := rfl
@[simp] theorem storeChallenge_matched : (s.storeChallenge c).matched = s.matched := rfl
@[simp] theorem storeChallenge_wrbusy : (s.storeChallenge c).wrbusy = s.wrbusy := rfl
@[simp] theorem storeChallenge_errcode : (s.storeChallenge c).errcode = s.errcode := rfl
@[simp] theorem storeChallenge_missing : (s.storeChallenge c).missing = s.missing := rfl
@[simp] theorem storeChallenge_present : (s.storeChallenge c).present = s.present := rfl
@[simp] theorem storeChallenge_seclen : (s.storeChallenge c).seclen = s.seclen := rfl
@[simp] theorem storeChallenge_keylen : (s.storeChallenge c).keylen = s.keylen := rfl
@[simp] theorem storeChallenge_datalen : (s.storeChallenge c).datalen = s.datalen := rfl
@[simp] theorem storeChallenge_msglen : (s.storeChallenge c).msglen = s.msglen := rfl
@[simp] theorem storeChallenge_challen : (s.storeChallenge c).challen = s.datalen := rfl
@[simp] theorem storeChallenge_secret : (s.storeChallenge c).secret = s.secret := rfl
@[simp] theorem storeChallenge_pkey : (s.storeChallenge c).pkey = s.pkey := rfl
@[simp] theorem storeChallenge_ipad : (s.storeChallenge c).ipad = s.ipad := rfl
@[simp] theorem storeChallenge_opad : (s.storeChallenge c).opad = s.opad := rfl
@[simp] theorem storeChallenge_kpdiag : (s.storeChallenge c).kpdiag = s.kpdiag := rfl
@[simp] theorem storeChallenge_inner : (s.storeChallenge c).inner = s.inner := rfl
@[simp] theorem storeChallenge_digest : (s.storeChallenge c).digest = s.digest := rfl
@[simp] theorem storeChallenge_key : (s.storeChallenge c).key = s.key := rfl
@[simp] theorem storeChallenge_data : (s.storeChallenge c).data = s.data := rfl
@[simp] theorem storeChallenge_msg : (s.storeChallenge c).msg = s.msg := rfl
@[simp] theorem storeChallenge_chal : (s.storeChallenge c).chal = (s.chal.put 0 c).put c.length (List.replicate (Config.chalMax - c.length) 0) := rfl
@[simp] theorem storeChallenge_kekh1 : (s.storeChallenge c).kekh1 = s.kekh1 := rfl
@[simp] theorem storeChallenge_kekh2 : (s.storeChallenge c).kekh2 = s.kekh2 := rfl
@[simp] theorem storeChallenge_expresp : (s.storeChallenge c).expresp = s.expresp := rfl
@[simp] theorem storeChallenge_eipad : (s.storeChallenge c).eipad = s.eipad := rfl
@[simp] theorem storeChallenge_eopad : (s.storeChallenge c).eopad = s.eopad := rfl
@[simp] theorem storeChallenge_program : (s.storeChallenge c).program = s.program := rfl
@[simp] theorem storeChallenge_turns : (s.storeChallenge c).turns = s.turns := rfl
@[simp] theorem storeChallenge_reads : (s.storeChallenge c).reads = s.reads := rfl
@[simp] theorem storeChallenge_draws : (s.storeChallenge c).draws = s.draws := rfl
end

/-! `State.loadKek` -/

@[simp] theorem loadKek_cmd : s.loadKek.cmd = s.cmd := rfl
@[simp] theorem loadKek_busy : s.loadKek.busy = s.busy := rfl
@[simp] theorem loadKek_done : s.loadKek.done = s.done := rfl
@[simp] theorem loadKek_verified : s.loadKek.verified = s.verified := rfl
@[simp] theorem loadKek_matched : s.loadKek.matched = s.matched := rfl
@[simp] theorem loadKek_wrbusy : s.loadKek.wrbusy = s.wrbusy := rfl
@[simp] theorem loadKek_errcode : s.loadKek.errcode = s.errcode := rfl
@[simp] theorem loadKek_missing : s.loadKek.missing = s.missing := rfl
@[simp] theorem loadKek_present : s.loadKek.present = s.present := rfl
@[simp] theorem loadKek_seclen : s.loadKek.seclen = s.seclen := rfl
@[simp] theorem loadKek_keylen : s.loadKek.keylen = ⟨0x20, 0x00⟩ := rfl
@[simp] theorem loadKek_datalen : s.loadKek.datalen = s.datalen := rfl
@[simp] theorem loadKek_msglen : s.loadKek.msglen = s.msglen := rfl
@[simp] theorem loadKek_challen : s.loadKek.challen = s.challen := rfl
@[simp] theorem loadKek_secret : s.loadKek.secret = s.secret := rfl
@[simp] theorem loadKek_pkey : s.loadKek.pkey = s.pkey := rfl
@[simp] theorem loadKek_ipad : s.loadKek.ipad = s.ipad := rfl
@[simp] theorem loadKek_opad : s.loadKek.opad = s.opad := rfl
@[simp] theorem loadKek_kpdiag : s.loadKek.kpdiag = s.kpdiag := rfl
@[simp] theorem loadKek_inner : s.loadKek.inner = s.inner := rfl
@[simp] theorem loadKek_digest : s.loadKek.digest = s.digest := rfl
@[simp] theorem loadKek_key : s.loadKek.key = s.key.put 0 s.kek.bytes := rfl
@[simp] theorem loadKek_data : s.loadKek.data = s.data := rfl
@[simp] theorem loadKek_msg : s.loadKek.msg = s.msg := rfl
@[simp] theorem loadKek_chal : s.loadKek.chal = s.chal := rfl
@[simp] theorem loadKek_kekh1 : s.loadKek.kekh1 = s.kekh1 := rfl
@[simp] theorem loadKek_kekh2 : s.loadKek.kekh2 = s.kekh2 := rfl
@[simp] theorem loadKek_expresp : s.loadKek.expresp = s.expresp := rfl
@[simp] theorem loadKek_eipad : s.loadKek.eipad = s.eipad := rfl
@[simp] theorem loadKek_eopad : s.loadKek.eopad = s.eopad := rfl
@[simp] theorem loadKek_program : s.loadKek.program = s.program := rfl
@[simp] theorem loadKek_turns : s.loadKek.turns = s.turns := rfl
@[simp] theorem loadKek_reads : s.loadKek.reads = s.reads := rfl
@[simp] theorem loadKek_draws : s.loadKek.draws = s.draws := rfl

/-! `State.decryptPads` -/

@[simp] theorem decryptPads_cmd : s.decryptPads.cmd = s.cmd := rfl
@[simp] theorem decryptPads_busy : s.decryptPads.busy = s.busy := rfl
@[simp] theorem decryptPads_done : s.decryptPads.done = s.done := rfl
@[simp] theorem decryptPads_verified : s.decryptPads.verified = s.verified := rfl
@[simp] theorem decryptPads_matched : s.decryptPads.matched = s.matched := rfl
@[simp] theorem decryptPads_wrbusy : s.decryptPads.wrbusy = s.wrbusy := rfl
@[simp] theorem decryptPads_errcode : s.decryptPads.errcode = s.errcode := rfl
@[simp] theorem decryptPads_missing : s.decryptPads.missing = s.missing := rfl
@[simp] theorem decryptPads_present : s.decryptPads.present = s.present := rfl
@[simp] theorem decryptPads_seclen : s.decryptPads.seclen = s.seclen := rfl
@[simp] theorem decryptPads_keylen : s.decryptPads.keylen = s.keylen := rfl
@[simp] theorem decryptPads_datalen : s.decryptPads.datalen = s.datalen := rfl
@[simp] theorem decryptPads_msglen : s.decryptPads.msglen = s.msglen := rfl
@[simp] theorem decryptPads_challen : s.decryptPads.challen = s.challen := rfl
@[simp] theorem decryptPads_secret : s.decryptPads.secret = s.secret := rfl
@[simp] theorem decryptPads_pkey : s.decryptPads.pkey = s.pkey := rfl
@[simp] theorem decryptPads_ipad : s.decryptPads.ipad = scPad s.kek s.eipad := rfl
@[simp] theorem decryptPads_opad : s.decryptPads.opad = scPad s.kek s.eopad := rfl
@[simp] theorem decryptPads_kpdiag : s.decryptPads.kpdiag = s.kpdiag := rfl
@[simp] theorem decryptPads_inner : s.decryptPads.inner = s.inner := rfl
@[simp] theorem decryptPads_digest : s.decryptPads.digest = s.digest := rfl
@[simp] theorem decryptPads_key : s.decryptPads.key = s.key := rfl
@[simp] theorem decryptPads_data : s.decryptPads.data = s.data := rfl
@[simp] theorem decryptPads_msg : s.decryptPads.msg = s.msg := rfl
@[simp] theorem decryptPads_chal : s.decryptPads.chal = s.chal := rfl
@[simp] theorem decryptPads_kekh1 : s.decryptPads.kekh1 = s.kekh1 := rfl
@[simp] theorem decryptPads_kekh2 : s.decryptPads.kekh2 = s.kekh2 := rfl
@[simp] theorem decryptPads_expresp : s.decryptPads.expresp = s.expresp := rfl
@[simp] theorem decryptPads_eipad : s.decryptPads.eipad = s.eipad := rfl
@[simp] theorem decryptPads_eopad : s.decryptPads.eopad = s.eopad := rfl
@[simp] theorem decryptPads_program : s.decryptPads.program = s.program := rfl
@[simp] theorem decryptPads_turns : s.decryptPads.turns = s.turns := rfl
@[simp] theorem decryptPads_reads : s.decryptPads.reads = s.reads := rfl
@[simp] theorem decryptPads_draws : s.decryptPads.draws = s.draws := rfl

/-! `State.recompute` -/

@[simp] theorem recompute_cmd : s.recompute.cmd = s.cmd := rfl
@[simp] theorem recompute_busy : s.recompute.busy = s.busy := rfl
@[simp] theorem recompute_done : s.recompute.done = s.done := rfl
@[simp] theorem recompute_verified : s.recompute.verified = s.verified := rfl
@[simp] theorem recompute_matched : s.recompute.matched = s.matched := rfl
@[simp] theorem recompute_wrbusy : s.recompute.wrbusy = s.wrbusy := rfl
@[simp] theorem recompute_errcode : s.recompute.errcode = s.errcode := rfl
@[simp] theorem recompute_missing : s.recompute.missing = s.missing := rfl
@[simp] theorem recompute_present : s.recompute.present = s.present := rfl
@[simp] theorem recompute_seclen : s.recompute.seclen = s.seclen := rfl
@[simp] theorem recompute_keylen : s.recompute.keylen = s.keylen := rfl
@[simp] theorem recompute_datalen : s.recompute.datalen = s.datalen := rfl
@[simp] theorem recompute_msglen : s.recompute.msglen = s.msglen := rfl
@[simp] theorem recompute_challen : s.recompute.challen = s.challen := rfl
@[simp] theorem recompute_secret : s.recompute.secret = s.secret := rfl
@[simp] theorem recompute_pkey : s.recompute.pkey = s.pkey := rfl
@[simp] theorem recompute_ipad : s.recompute.ipad = s.ipad := rfl
@[simp] theorem recompute_opad : s.recompute.opad = s.opad := rfl
@[simp] theorem recompute_kpdiag : s.recompute.kpdiag = s.ipad.xor s.opad := rfl
@[simp] theorem recompute_inner : s.recompute.inner = (hmacF s.ipad s.opad s.challenge).1 := rfl
@[simp] theorem recompute_digest : s.recompute.digest = (hmacF s.ipad s.opad s.challenge).2 := rfl
@[simp] theorem recompute_key : s.recompute.key = s.key := rfl
@[simp] theorem recompute_data : s.recompute.data = s.data := rfl
@[simp] theorem recompute_msg : s.recompute.msg = s.msg := rfl
@[simp] theorem recompute_chal : s.recompute.chal = s.chal := rfl
@[simp] theorem recompute_kekh1 : s.recompute.kekh1 = s.kekh1 := rfl
@[simp] theorem recompute_kekh2 : s.recompute.kekh2 = s.kekh2 := rfl
@[simp] theorem recompute_expresp : s.recompute.expresp = s.expresp := rfl
@[simp] theorem recompute_eipad : s.recompute.eipad = s.eipad := rfl
@[simp] theorem recompute_eopad : s.recompute.eopad = s.eopad := rfl
@[simp] theorem recompute_program : s.recompute.program = s.program := rfl
@[simp] theorem recompute_turns : s.recompute.turns = s.turns := rfl
@[simp] theorem recompute_reads : s.recompute.reads = s.reads := rfl
@[simp] theorem recompute_draws : s.recompute.draws = s.draws := rfl

/-! `State.compare` -/

@[simp] theorem compare_cmd : s.compare.cmd = s.cmd := rfl
@[simp] theorem compare_busy : s.compare.busy = s.busy := rfl
@[simp] theorem compare_done : s.compare.done = s.done := rfl
@[simp] theorem compare_verified : s.compare.verified = true := rfl
@[simp] theorem compare_matched : s.compare.matched = (s.digest == s.expresp) := rfl
@[simp] theorem compare_wrbusy : s.compare.wrbusy = s.wrbusy := rfl
@[simp] theorem compare_errcode : s.compare.errcode = s.errcode := rfl
@[simp] theorem compare_missing : s.compare.missing = s.missing := rfl
@[simp] theorem compare_present : s.compare.present = s.present := rfl
@[simp] theorem compare_seclen : s.compare.seclen = s.seclen := rfl
@[simp] theorem compare_keylen : s.compare.keylen = s.keylen := rfl
@[simp] theorem compare_datalen : s.compare.datalen = s.datalen := rfl
@[simp] theorem compare_msglen : s.compare.msglen = s.msglen := rfl
@[simp] theorem compare_challen : s.compare.challen = s.challen := rfl
@[simp] theorem compare_secret : s.compare.secret = s.secret := rfl
@[simp] theorem compare_pkey : s.compare.pkey = s.pkey := rfl
@[simp] theorem compare_ipad : s.compare.ipad = s.ipad := rfl
@[simp] theorem compare_opad : s.compare.opad = s.opad := rfl
@[simp] theorem compare_kpdiag : s.compare.kpdiag = s.kpdiag := rfl
@[simp] theorem compare_inner : s.compare.inner = s.inner := rfl
@[simp] theorem compare_digest : s.compare.digest = s.digest := rfl
@[simp] theorem compare_key : s.compare.key = s.key := rfl
@[simp] theorem compare_data : s.compare.data = s.data := rfl
@[simp] theorem compare_msg : s.compare.msg = s.msg := rfl
@[simp] theorem compare_chal : s.compare.chal = s.chal := rfl
@[simp] theorem compare_kekh1 : s.compare.kekh1 = s.kekh1 := rfl
@[simp] theorem compare_kekh2 : s.compare.kekh2 = s.kekh2 := rfl
@[simp] theorem compare_expresp : s.compare.expresp = s.expresp := rfl
@[simp] theorem compare_eipad : s.compare.eipad = s.eipad := rfl
@[simp] theorem compare_eopad : s.compare.eopad = s.eopad := rfl
@[simp] theorem compare_program : s.compare.program = s.program := rfl
@[simp] theorem compare_turns : s.compare.turns = s.turns := rfl
@[simp] theorem compare_reads : s.compare.reads = s.reads := rfl
@[simp] theorem compare_draws : s.compare.draws = s.draws := rfl

/-! `State.recordRead` -/

section
variable (a : Addr)
@[simp] theorem recordRead_cmd : (s.recordRead a).cmd = s.cmd := rfl
@[simp] theorem recordRead_busy : (s.recordRead a).busy = s.busy := rfl
@[simp] theorem recordRead_done : (s.recordRead a).done = s.done := rfl
@[simp] theorem recordRead_verified : (s.recordRead a).verified = s.verified := rfl
@[simp] theorem recordRead_matched : (s.recordRead a).matched = s.matched := rfl
@[simp] theorem recordRead_wrbusy : (s.recordRead a).wrbusy = s.wrbusy := rfl
@[simp] theorem recordRead_errcode : (s.recordRead a).errcode = s.errcode := rfl
@[simp] theorem recordRead_missing : (s.recordRead a).missing = s.missing := rfl
@[simp] theorem recordRead_present : (s.recordRead a).present = s.present := rfl
@[simp] theorem recordRead_seclen : (s.recordRead a).seclen = s.seclen := rfl
@[simp] theorem recordRead_keylen : (s.recordRead a).keylen = s.keylen := rfl
@[simp] theorem recordRead_datalen : (s.recordRead a).datalen = s.datalen := rfl
@[simp] theorem recordRead_msglen : (s.recordRead a).msglen = s.msglen := rfl
@[simp] theorem recordRead_challen : (s.recordRead a).challen = s.challen := rfl
@[simp] theorem recordRead_secret : (s.recordRead a).secret = s.secret := rfl
@[simp] theorem recordRead_pkey : (s.recordRead a).pkey = s.pkey := rfl
@[simp] theorem recordRead_ipad : (s.recordRead a).ipad = s.ipad := rfl
@[simp] theorem recordRead_opad : (s.recordRead a).opad = s.opad := rfl
@[simp] theorem recordRead_kpdiag : (s.recordRead a).kpdiag = s.kpdiag := rfl
@[simp] theorem recordRead_inner : (s.recordRead a).inner = s.inner := rfl
@[simp] theorem recordRead_digest : (s.recordRead a).digest = s.digest := rfl
@[simp] theorem recordRead_key : (s.recordRead a).key = s.key := rfl
@[simp] theorem recordRead_data : (s.recordRead a).data = s.data := rfl
@[simp] theorem recordRead_msg : (s.recordRead a).msg = s.msg := rfl
@[simp] theorem recordRead_chal : (s.recordRead a).chal = s.chal := rfl
@[simp] theorem recordRead_kekh1 : (s.recordRead a).kekh1 = s.kekh1 := rfl
@[simp] theorem recordRead_kekh2 : (s.recordRead a).kekh2 = s.kekh2 := rfl
@[simp] theorem recordRead_expresp : (s.recordRead a).expresp = s.expresp := rfl
@[simp] theorem recordRead_eipad : (s.recordRead a).eipad = s.eipad := rfl
@[simp] theorem recordRead_eopad : (s.recordRead a).eopad = s.eopad := rfl
@[simp] theorem recordRead_program : (s.recordRead a).program = s.program := rfl
@[simp] theorem recordRead_turns : (s.recordRead a).turns = s.turns := rfl
@[simp] theorem recordRead_reads : (s.recordRead a).reads = (a, memRead a s) :: s.reads := rfl
@[simp] theorem recordRead_draws : (s.recordRead a).draws = if s.busy then s.draws + 1 else s.draws := rfl
end

/-! `State.resetBlock` -/

@[simp] theorem resetBlock_cmd : s.resetBlock.cmd = State.reset.cmd := rfl
@[simp] theorem resetBlock_busy : s.resetBlock.busy = State.reset.busy := rfl
@[simp] theorem resetBlock_done : s.resetBlock.done = State.reset.done := rfl
@[simp] theorem resetBlock_verified : s.resetBlock.verified = State.reset.verified := rfl
@[simp] theorem resetBlock_matched : s.resetBlock.matched = State.reset.matched := rfl
@[simp] theorem resetBlock_wrbusy : s.resetBlock.wrbusy = State.reset.wrbusy := rfl
@[simp] theorem resetBlock_errcode : s.resetBlock.errcode = State.reset.errcode := rfl
@[simp] theorem resetBlock_missing : s.resetBlock.missing = State.reset.missing := rfl
@[simp] theorem resetBlock_present : s.resetBlock.present = State.reset.present := rfl
@[simp] theorem resetBlock_seclen : s.resetBlock.seclen = State.reset.seclen := rfl
@[simp] theorem resetBlock_keylen : s.resetBlock.keylen = State.reset.keylen := rfl
@[simp] theorem resetBlock_datalen : s.resetBlock.datalen = State.reset.datalen := rfl
@[simp] theorem resetBlock_msglen : s.resetBlock.msglen = State.reset.msglen := rfl
@[simp] theorem resetBlock_challen : s.resetBlock.challen = State.reset.challen := rfl
@[simp] theorem resetBlock_secret : s.resetBlock.secret = State.reset.secret := rfl
@[simp] theorem resetBlock_pkey : s.resetBlock.pkey = State.reset.pkey := rfl
@[simp] theorem resetBlock_ipad : s.resetBlock.ipad = State.reset.ipad := rfl
@[simp] theorem resetBlock_opad : s.resetBlock.opad = State.reset.opad := rfl
@[simp] theorem resetBlock_kpdiag : s.resetBlock.kpdiag = State.reset.kpdiag := rfl
@[simp] theorem resetBlock_inner : s.resetBlock.inner = State.reset.inner := rfl
@[simp] theorem resetBlock_digest : s.resetBlock.digest = State.reset.digest := rfl
@[simp] theorem resetBlock_key : s.resetBlock.key = State.reset.key := rfl
@[simp] theorem resetBlock_data : s.resetBlock.data = State.reset.data := rfl
@[simp] theorem resetBlock_msg : s.resetBlock.msg = State.reset.msg := rfl
@[simp] theorem resetBlock_chal : s.resetBlock.chal = State.reset.chal := rfl
@[simp] theorem resetBlock_kekh1 : s.resetBlock.kekh1 = State.reset.kekh1 := rfl
@[simp] theorem resetBlock_kekh2 : s.resetBlock.kekh2 = State.reset.kekh2 := rfl
@[simp] theorem resetBlock_expresp : s.resetBlock.expresp = State.reset.expresp := rfl
@[simp] theorem resetBlock_eipad : s.resetBlock.eipad = State.reset.eipad := rfl
@[simp] theorem resetBlock_eopad : s.resetBlock.eopad = State.reset.eopad := rfl
@[simp] theorem resetBlock_program : s.resetBlock.program = s.program := rfl
@[simp] theorem resetBlock_turns : s.resetBlock.turns = s.turns := rfl
@[simp] theorem resetBlock_reads : s.resetBlock.reads = s.reads := rfl
@[simp] theorem resetBlock_draws : s.resetBlock.draws = s.draws := rfl

/-! What the operands read does not depend on the updates that leave their registers alone. -/

@[simp] theorem complete_candidate (e : ErrCode) (m : BitVec 6) : (s.complete e m).candidate = s.candidate := rfl
@[simp] theorem complete_vstate (e : ErrCode) (m : BitVec 6) : (s.complete e m).vstate = s.vstate := rfl
@[simp] theorem loadKek_kek : s.loadKek.kek = s.kek := rfl
@[simp] theorem decryptPads_challenge : s.decryptPads.challenge = s.challenge := rfl
@[simp] theorem loadKek_challenge : s.loadKek.challenge = s.challenge := rfl
@[simp] theorem decryptPads_candidate : s.decryptPads.candidate = s.candidate := rfl

/-- The digest that `VERIFY` computes is the candidate (R210). -/
theorem verify_digest : s.loadKek.decryptPads.recompute.digest = s.candidate := rfl

end Sys2Proof.Machine
end

