-- ==== Sys2Proof/Laws/Exec.lean ====
section
/-! SUPPORT. What the shared operations of the commands answer: each once, with its cases. -/

namespace Sys2Proof.Machine

theorem finish_eq_next {s t : State} (h : finish s = .next t) : t = s.complete .ok 0 := by
  simpa [finish] using h.symm

theorem raise_eq_next {e : CmdError} {s t : State} (h : raise e s = .next t) : t = s.complete e.code e.mask := by
  simpa [raise] using h.symm

theorem CmdError.code_ne_ok (e : CmdError) : e.code ≠ .ok := by cases e <;> simp [CmdError.code]

theorem CmdError.mask_eq_zero {e : CmdError} (h : e.code ≠ .missingField) : e.mask = 0 := by
  cases e <;> first | rfl | exact absurd rfl h

/-- A `SETx` of a fixed-width field: a wrong length leaves the record of `BadLength`, the right one stores and marks (R201). -/
theorem setFixed_cases (k w : Nat) (store : List Byte → State → State) (s : State) :
    (s.datalen.val ≠ w ∧ setFixed k w store s = raise .badLength s) ∨
    (s.datalen.val = w ∧ setFixed k w store s = finish ((store (s.data.slice 0 w) s).markSet k)) := by
  rcases stagedField_cases s w with ⟨h, e⟩ | ⟨h, e⟩
  · exact .inl ⟨h, by simp [setFixed, e]⟩
  · exact .inr ⟨h, by simp [setFixed, e]⟩

/-- The two outcomes of `HASH` (R155). -/
theorem execHash_cases (s : State) :
    (Config.msgMax < s.msglen.val ∧ execHash s = raise .badLength s) ∨
    (s.msglen.val ≤ Config.msgMax ∧
      execHash s = finish { s with digest := sha256 (s.msg.slice 0 s.msglen.val) }) := by
  rcases msgOperand_cases s with ⟨h, e⟩ | ⟨h, e⟩
  · exact .inl ⟨h, by simp [execHash, e]⟩
  · exact .inr ⟨h, by simp [execHash, e]⟩

/-- The two outcomes of `HMAC` (R172). -/
theorem execHmac_cases (s : State) :
    (Config.msgMax < s.msglen.val ∧ execHmac s = raise .badLength s) ∨
    (s.msglen.val ≤ Config.msgMax ∧
      execHmac s = finish
        { s with inner := (hmacF s.ipad s.opad (s.msg.slice 0 s.msglen.val)).1
                 digest := (hmacF s.ipad s.opad (s.msg.slice 0 s.msglen.val)).2 }) := by
  rcases msgOperand_cases s with ⟨h, e⟩ | ⟨h, e⟩
  · exact .inl ⟨h, by simp [execHmac, e]⟩
  · exact .inr ⟨h, by simp [execHmac, e]⟩

/-- The outcomes of `CIPHER`, in the order of R238 (R185). -/
theorem execCipher_cases (s : State) :
    (s.keylen.val = 0 ∧ execCipher s = raise .invalidKey s) ∨
    (0 < s.keylen.val ∧ (Config.keyMax < s.keylen.val ∨ Config.dataMax < s.datalen.val) ∧
      execCipher s = raise .badLength s) ∨
    (∃ (h0 : 0 < s.keylen.val) (h : s.keylen.val ≤ Config.keyMax), s.datalen.val ≤ Config.dataMax ∧
      execCipher s = finish
        { s with data := s.data.put 0 (sc (keyOf s.key s.keylen.val h0 h) (s.data.slice 0 s.datalen.val)) }) := by
  rcases keyOperand_cases s with ⟨h, e⟩ | ⟨h, e⟩ | ⟨h0, h, e⟩
  · exact .inl ⟨h, by simp [execCipher, e]⟩
  · exact .inr (.inl ⟨by simp only [Config.keyMax] at h; omega, .inl h, by simp [execCipher, e]⟩)
  · rcases dataOperand_cases s with ⟨hd, ed⟩ | ⟨hd, ed⟩
    · exact .inr (.inl ⟨h0, .inr hd, by simp [execCipher, e, ed]⟩)
    · exact .inr (.inr ⟨h0, h, hd, by simp [execCipher, e, ed]⟩)

/-- The outcomes of `CIPHERI` (R186). -/
theorem execCipheri_cases (s : State) :
    (s.keylen.val = 0 ∧ execCipheri s = raise .invalidKey s) ∨
    (Config.keyMax < s.keylen.val ∧ execCipheri s = raise .badLength s) ∨
    (∃ (h0 : 0 < s.keylen.val) (h : s.keylen.val ≤ Config.keyMax),
      execCipheri s = finish { s with ipad := scPad (keyOf s.key s.keylen.val h0 h) s.ipad }) := by
  rcases keyOperand_cases s with ⟨h, e⟩ | ⟨h, e⟩ | ⟨h0, h, e⟩
  · exact .inl ⟨h, by simp [execCipheri, e]⟩
  · exact .inr (.inl ⟨h, by simp [execCipheri, e]⟩)
  · exact .inr (.inr ⟨h0, h, by simp [execCipheri, e]⟩)

/-- The outcomes of `CIPHERO` (R187). -/
theorem execCiphero_cases (s : State) :
    (s.keylen.val = 0 ∧ execCiphero s = raise .invalidKey s) ∨
    (Config.keyMax < s.keylen.val ∧ execCiphero s = raise .badLength s) ∨
    (∃ (h0 : 0 < s.keylen.val) (h : s.keylen.val ≤ Config.keyMax),
      execCiphero s = finish { s with opad := scPad (keyOf s.key s.keylen.val h0 h) s.opad }) := by
  rcases keyOperand_cases s with ⟨h, e⟩ | ⟨h, e⟩ | ⟨h0, h, e⟩
  · exact .inl ⟨h, by simp [execCiphero, e]⟩
  · exact .inr (.inl ⟨h, by simp [execCiphero, e]⟩)
  · exact .inr (.inr ⟨h0, h, by simp [execCiphero, e]⟩)

/-- The two outcomes of `SETCHAL` (R206). -/
theorem execSetchal_cases (s : State) :
    (Config.dataMax < s.datalen.val ∧ execSetchal s = raise .badLength s) ∨
    (s.datalen.val ≤ Config.dataMax ∧
      execSetchal s = finish ((s.storeChallenge (s.data.slice 0 s.datalen.val)).markSet 4)) := by
  rcases dataOperand_cases s with ⟨h, e⟩ | ⟨h, e⟩
  · exact .inl ⟨h, by simp [execSetchal, e]⟩
  · exact .inr ⟨h, by simp [execSetchal, e]⟩

/-- The two outcomes of `VERIFY` (R210). -/
theorem execVerify_cases (s : State) :
    (s.absent ≠ 0 ∧ execVerify s = raise (.missingField s.absent) s) ∨
    (s.absent = 0 ∧ execVerify s = finish s.loadKek.decryptPads.recompute.compare) := by
  by_cases h : s.absent = 0
  · exact .inr ⟨h, if_neg (not_not.mpr h)⟩
  · exact .inl ⟨h, if_pos h⟩

/-- No field is absent exactly when all are present (R31, R32). -/
theorem absent_eq_zero_iff (s : State) : s.absent = 0 ↔ s.present = allPresent := by
  have : ∀ p : BitVec 6, (~~~p &&& allPresent = 0) ↔ p = allPresent := by decide
  exact this s.present

/-- What a `SETx` leaves of the flags: in error all as they were; else one `PRESENT` bit more, and no verdict (R201). -/
theorem set_flags {i : Instr} (hi : i.isSet = true) (s : State) :
    exec i s = raise .badLength s ∨ ∃ (k : Nat) (u : State), k < 6 ∧ exec i s = finish (u.markSet k) ∧
      u.present = s.present := by
  have fixed (k w : Nat) (hk : k < 6) (store : List Byte → State → State) (hs : ∀ f, (store f s).present = s.present) :
      setFixed k w store s = raise .badLength s ∨ ∃ (j : Nat) (u : State), j < 6 ∧
        setFixed k w store s = finish (u.markSet j) ∧ u.present = s.present :=
    (setFixed_cases k w store s).imp And.right fun h => ⟨k, _, hk, h.2, hs _⟩
  cases i <;> try exact absurd hi (by decide)
  case setchal => exact (execSetchal_cases s).imp And.right fun h => ⟨4, s.storeChallenge _, by decide, h.2, rfl⟩
  case setkek1 => exact fixed 0 16 (by decide) (fun f s => { s with kekh1 := s.kekh1.put 0 f }) fun _ => rfl
  case setkek2 => exact fixed 1 16 (by decide) (fun f s => { s with kekh2 := s.kekh2.put 0 f }) fun _ => rfl
  case seteipad => exact fixed 2 64 (by decide) (fun f s => { s with eipad := s.eipad.put 0 f }) fun _ => rfl
  case seteopad => exact fixed 3 64 (by decide) (fun f s => { s with eopad := s.eopad.put 0 f }) fun _ => rfl
  case setresp => exact fixed 5 32 (by decide) (fun f s => { s with expresp := s.expresp.put 0 f }) fun _ => rfl

end Sys2Proof.Machine
end

