-- ==== Sys2Proof/Laws/HostPort.lean ====
section
/-! SUPPORT. What a host access does: reads and writes while `BUSY` = 0 and while `BUSY` = 1. -/

namespace Sys2Proof.Machine

variable {s : State}

@[simp] theorem memRead_idle (h : s.busy = false) (a : Addr) : memRead a s = s.byteAt a := by simp [memRead, h]

@[simp] theorem memRead_busy (h : s.busy = true) (a : Addr) :
    memRead a s = s.busyByteAt (Config.freeByte s.draws) a := by simp [memRead, h]

@[simp] theorem memWrite_idle (h : s.busy = false) (a : Addr) (v : Byte) : memWrite a v s = s.idleWrite a v := by
  simp [memWrite, h]

@[simp] theorem memWrite_busy (h : s.busy = true) (a : Addr) (v : Byte) : memWrite a v s = { s with wrbusy := true } := by
  simp [memWrite, h]

theorem byteAt_addr (s : State) (r : Reg) {i : Nat} (h : i < r.size) : s.byteAt (r.addr i) = s.regByte r i := by
  simp [State.byteAt, h]

theorem byteAt_none (s : State) {a : Addr} (h : locate a = none) : s.byteAt a = 0 := by simp [State.byteAt, h]

/-- Writing a register's byte leaves what is not host-writable alone. -/
theorem writeReg_readOnly (s : State) {r : Reg} (h : r.writable = false) (i : Nat) (v : Byte) : s.writeReg r i v = s := by
  cases r <;> first | rfl | exact absurd h (by decide)

end Sys2Proof.Machine
end

