-- ==== Sys2Proof/Laws/PerInstr.lean ====
section
/-! SUPPORT. Facts about every command as syntax, one lemma a command. -/

namespace Sys2Proof.Laws.OpcodeRows

/-- The command's code, as spec/opcode_table.json gives it, is the code of the one row of R94 for the command, and a command
is well formed (it has no operands, R93). -/
def Statement (i : Instr) : Prop :=
  ((opcodeMap.filter fun r => r.instr = i).map OpcodeRow.code) = [encode i] ∧ i.wellFormed = true

theorem nop : Statement .nop := by unfold Statement; decide
theorem clrctx : Statement .clrctx := by unfold Statement; decide
theorem padkey : Statement .padkey := by unfold Statement; decide
theorem derive : Statement .derive := by unfold Statement; decide
theorem xorpads : Statement .xorpads := by unfold Statement; decide
theorem hash : Statement .hash := by unfold Statement; decide
theorem hmac : Statement .hmac := by unfold Statement; decide
theorem cipher : Statement .cipher := by unfold Statement; decide
theorem cipheri : Statement .cipheri := by unfold Statement; decide
theorem ciphero : Statement .ciphero := by unfold Statement; decide
theorem setkek1 : Statement .setkek1 := by unfold Statement; decide
theorem setkek2 : Statement .setkek2 := by unfold Statement; decide
theorem seteipad : Statement .seteipad := by unfold Statement; decide
theorem seteopad : Statement .seteopad := by unfold Statement; decide
theorem setchal : Statement .setchal := by unfold Statement; decide
theorem setresp : Statement .setresp := by unfold Statement; decide
theorem verify : Statement .verify := by unfold Statement; decide

end Sys2Proof.Laws.OpcodeRows
end

