-- ==== Sys2Proof/Laws/Step.lean ====
section
/-! SUPPORT. What one step can be: a host access, an engine step, a turn of an engine with nothing to do, or a reset. -/

namespace Sys2Proof.Machine

/-- The inversion of `step` (R73): who moved, and what that turn was. -/
theorem step_cases {s t : State} (h : step s = .next t) :
    (s.mover = .host ∧ t = s.popTurn.hostAccess) ∨
    (s.mover = .engine ∧ s.busy = true ∧ engineStep s.popTurn = .next t) ∨
    (s.mover = .engine ∧ s.busy = false ∧ t = s.popTurn) ∨
    (s.mover = .reset ∧ t = s.popTurn.resetBlock) := by
  simp only [step, takeTurn] at h
  split at h
  · exact .inl ⟨‹_›, by simpa using h.symm⟩
  · by_cases hb : s.busy = true
    · exact .inr (.inl ⟨‹_›, hb, by simpa [hb] using h⟩)
    · exact .inr (.inr (.inl ⟨‹_›, by simpa using hb, by simpa [hb] using h.symm⟩))
  · exact .inr (.inr (.inr ⟨‹_›, by simpa using h.symm⟩))

/-- The inversion of the engine step (R66, R98): the decoded command, or the record of `UnknownCommand`. -/
theorem engineStep_cases (s : State) :
    (∃ i, decode s.cmd = .ok i ∧ engineStep s = exec i s) ∨
    (∃ c, decode s.cmd = .error (.unknownCommand c) ∧ engineStep s = raise .unknownCommand s) := by
  unfold engineStep
  rcases decode s.cmd with ⟨⟨c⟩⟩ | i
  · exact .inr ⟨c, rfl, rfl⟩
  · exact .inl ⟨i, rfl, rfl⟩

/-- The inversion of the host's access (R60): what it was. -/
theorem hostAccess_cases (s : State) :
    (s.program = [] ∧ s.hostAccess = s) ∨
    (∃ a rest, s.program = .rd a :: rest ∧ s.hostAccess = { s with program := rest }.recordRead a) ∨
    (∃ a v rest, s.program = .wr a v :: rest ∧ s.hostAccess = memWrite a v { s with program := rest }) ∨
    (∃ rest, s.program = .poll :: rest ∧ (memRead (Reg.status.addr 0) s).getLsbD 0 = true ∧
      s.hostAccess = s.recordRead (Reg.status.addr 0)) ∨
    (∃ rest, s.program = .poll :: rest ∧ (memRead (Reg.status.addr 0) s).getLsbD 0 = false ∧
      s.hostAccess = { s with program := rest }.recordRead (Reg.status.addr 0)) := by
  unfold State.hostAccess
  split <;> rename_i hp
  · exact .inl ⟨hp, rfl⟩
  · exact .inr (.inl ⟨_, _, hp, rfl⟩)
  · exact .inr (.inr (.inl ⟨_, _, _, hp, rfl⟩))
  · by_cases hb : (memRead (Reg.status.addr 0) s).getLsbD 0 = true
    · exact .inr (.inr (.inr (.inl ⟨_, hp, hb, if_pos hb⟩)))
    · exact .inr (.inr (.inr (.inr ⟨_, hp, by simpa using hb, if_neg hb⟩)))

end Sys2Proof.Machine
end

