-- ==== Sys2Proof/Laws/Runs.lean ====
section
/-! SUPPORT. Chaining commands and chaining steps: one lemma for one link. -/

namespace Sys2Proof.Machine

@[simp] theorem runCommands_nil (s : State) : runCommands [] s = .next s := rfl

theorem runCommands_cons {i : Instr} {s t : State} (h : exec i s = .next t) (is : List Instr) :
    runCommands (i :: is) s = runCommands is t := by simp only [runCommands, h]

@[simp] theorem runSteps_zero (s : State) : runSteps 0 s = .next s := rfl

theorem runSteps_succ {s t : State} (h : step s = .next t) (n : Nat) : runSteps (n + 1) s = runSteps n t := by
  simp only [runSteps, h]

/-- A run in two parts. -/
theorem runSteps_add {s t : State} {m : Nat} (h : runSteps m s = .next t) (n : Nat) :
    runSteps (m + n) s = runSteps n t := by
  induction m generalizing s with
  | zero =>
    rw [runSteps_zero] at h
    cases h
    rw [Nat.zero_add]
  | succ m ih =>
    rw [Nat.succ_add, runSteps]
    rw [runSteps] at h
    split at h <;> simp_all

end Sys2Proof.Machine
end

