-- ==== Sys2Proof/Laws/Sha256.lean ====
section
/-! SUPPORT. The hash core (42_sha256.md): lengths, the rounds of a block and the blocks of a message one by one, and the bytes
of the digest. -/

namespace Sys2Proof.Machine

/-- The rotation of R9 is the library's rotation. -/
theorem rotr32_eq_rotateRight (x : Word) {n : Nat} (h : n < 32) : rotr32 x n = x.rotateRight n := by
  simp [rotr32, BitVec.rotateRight, BitVec.rotateRightAux, Nat.mod_eq_of_lt h]

@[simp] theorem shaK_length : shaK.length = 64 := by decide

@[simp] theorem extendSchedule_length (n : Nat) (w : List Word) : (extendSchedule n w).length = n + w.length := by
  induction n generalizing w with
  | zero => simp [extendSchedule]
  | succ n ih => simp [extendSchedule, ih]; omega

theorem bytesToWords_length (b : List Byte) : (bytesToWords b).length = b.length / 4 := by
  induction b using bytesToWords.induct with
  | case1 b0 b1 b2 b3 rest ih => simp only [bytesToWords, List.length_cons, ih]; omega
  | case2 b h =>
    match b, h with
    | [], _ | [_], _ | [_, _], _ | [_, _, _], _ => simp [bytesToWords]
    | b0 :: b1 :: b2 :: b3 :: rest, h => exact (h b0 b1 b2 b3 rest rfl).elim

/-- A block's schedule has 64 words (R145). -/
theorem schedule_length {b : List Byte} (h : b.length = 64) : (schedule (bytesToWords b)).length = 64 := by
  simp [schedule, bytesToWords_length, h]

/-- The padded message has `N` whole blocks (R143). -/
theorem shaPad_length (s : List Byte) : (shaPad s).length = 64 * ((s.length + 8) / 64 + 1) := by
  simp only [shaPad, List.length_append, List.length_replicate, be64, List.length_map, List.length_cons, List.length_nil,
    padZeros]
  omega

/-- Folding over a prefix one entry longer. -/
theorem foldl_take_succ {α β : Type} (f : β → α → β) (z : β) (l : List α) {n : Nat} (h : n < l.length) :
    (l.take (n + 1)).foldl f z = f ((l.take n).foldl f z) l[n] := by
  rw [List.take_succ_eq_append_getElem h, List.foldl_append]; rfl

/-- Byte `b` of `be32(w)` (R151). -/
theorem be32_getD (w : Word) {b : Nat} (h : b < 4) : ((be32 w).getD b 0).toNat = w.toNat / 2 ^ (24 - 8 * b) % 256 := by
  match b, h with
  | 0, _ | 1, _ | 2, _ | 3, _ => simp [be32, Nat.shiftRight_eq_div_pow]

/-- Byte `4i + b` of a digest is byte `b` of word `i` (R151). -/
theorem Chain.digest_get (x : Chain) {i b : Nat} (hi : i < 8) (hb : b < 4) :
    x.digest.get (4 * i + b) = (be32 ([x.a, x.b, x.c, x.d, x.e, x.f, x.g, x.h].getD i 0)).getD b 0 := by
  match i, hi, b, hb with
  | 0, _, 0, _ | 0, _, 1, _ | 0, _, 2, _ | 0, _, 3, _ | 1, _, 0, _ | 1, _, 1, _ | 1, _, 2, _ | 1, _, 3, _ => rfl
  | 2, _, 0, _ | 2, _, 1, _ | 2, _, 2, _ | 2, _, 3, _ | 3, _, 0, _ | 3, _, 1, _ | 3, _, 2, _ | 3, _, 3, _ => rfl
  | 4, _, 0, _ | 4, _, 1, _ | 4, _, 2, _ | 4, _, 3, _ | 5, _, 0, _ | 5, _, 1, _ | 5, _, 2, _ | 5, _, 3, _ => rfl
  | 6, _, 0, _ | 6, _, 1, _ | 6, _, 2, _ | 6, _, 3, _ | 7, _, 0, _ | 7, _, 1, _ | 7, _, 2, _ | 7, _, 3, _ => rfl

/-- The chaining value after the first `i` blocks (R147). -/
def shaRun (s : List Byte) (i : Nat) : Chain := ((shaBlocks (shaPad s)).take i).foldl compress shaIV

@[simp] theorem shaRun_zero (s : List Byte) : shaRun s 0 = shaIV := rfl

/-- One block more (R147). -/
theorem shaRun_succ (s : List Byte) {i : Nat} (h : i < (s.length + 8) / 64 + 1) :
    shaRun s (i + 1) = compress (shaRun s i) (((shaPad s).drop (64 * i)).take 64) := by
  rw [shaRun, foldl_take_succ _ _ _ (by simp [shaBlocks, shaPad_length]; omega)]
  simp [shaBlocks, shaRun]

/-- The hash is the chaining value after all `N` blocks (R147, R152). -/
theorem sha256_eq_shaRun (s : List Byte) : sha256 s = (shaRun s ((s.length + 8) / 64 + 1)).digest := by
  rw [sha256, shaChain, shaRun, List.take_of_length_le (by simp [shaBlocks, shaPad_length])]

/-- The working variables after the first `t` rounds of a block (R146). -/
def roundRun (hv : Chain) (blk : List Byte) (t : Nat) : Chain :=
  ((shaK.zip (schedule (bytesToWords blk))).take t).foldl shaRound hv

@[simp] theorem roundRun_zero (hv : Chain) (blk : List Byte) : roundRun hv blk 0 = hv := rfl

/-- One round more (R146). -/
theorem roundRun_succ (hv : Chain) {blk : List Byte} (h : blk.length = 64) {t : Nat} (ht : t < 64) :
    roundRun hv blk (t + 1) =
      shaRound (roundRun hv blk t) (shaK.getD t 0, (schedule (bytesToWords blk)).getD t 0) := by
  have hw := schedule_length h
  have hk := shaK_length
  rw [roundRun, foldl_take_succ _ _ _ (by simp [hw, ht])]
  simp [roundRun, List.getD_eq_getElem?_getD, hw, hk, ht]

/-- `COMPRESS` is all 64 rounds and the addition of the old chaining value (R146). -/
theorem compress_eq_roundRun (hv : Chain) {blk : List Byte} (h : blk.length = 64) :
    compress hv blk = hv.add (roundRun hv blk 64) := by
  rw [compress, roundRun, List.take_of_length_le (by simp [schedule_length h])]

end Sys2Proof.Machine
end

