-- ==== Sys2Proof/Tests/Slice0.lean ====
section
/-! SUPPORT. Small tests. Expected values are the spec's: the encoding table (30_encoding.md), the vectors of
95_test_vectors.md (named V-... or P...), or hand calculation where a comment says so. After them a witness for each statement
that has hypotheses. -/

namespace Sys2Proof.Tests

/-! One theorem after the other: a thread for each would reserve more stack than the check allows. -/

set_option Elab.async false

open Sys2Proof.Machine

/-! Helpers. -/

/-- The outcome is a next state with the property. -/
def after (o : Host.Outcome State Fault Refusal) (p : State → Bool) : Bool :=
  match o with
  | .next t => p t
  | .fault _ => false
  | .refused _ => false

/-- A length register holding `n` (R33). -/
def len (n : Nat) : Len16 := ⟨BitVec.ofNat 8 n, BitVec.ofNat 8 (n / 256)⟩

/-- `n` bytes counting up from `a`. -/
def upFrom (a n : Nat) : List Byte := (List.range n).map fun i => BitVec.ofNat 8 (a + i)

/-- A buffer that starts with the bytes and holds zeros behind them. -/
def buf (n : Nat) (s : List Byte) : Buf n := (Buf.rep n 0).put 0 s

/-- The block with secret "Jefe" (V-P2). -/
def sJefe : State := { State.reset with secret := buf 64 [0x4A, 0x65, 0x66, 0x65], seclen := 4 }

/-- The block with message "abc" (V-H14). -/
def sAbc : State := { State.reset with msg := buf 256 [0x61, 0x62, 0x63], msglen := len 3 }

/-- The block with key "Key" and data "Plaintext" (V-S1, P4), and one more byte behind the data. -/
def sKey : State :=
  { State.reset with
    key := buf 256 [0x4B, 0x65, 0x79]
    keylen := len 3
    data := buf 256 [0x50, 0x6C, 0x61, 0x69, 0x6E, 0x74, 0x65, 0x78, 0x74, 0xAA]
    datalen := len 9 }

/-- A staged string of `n` bytes 0x10, 0x11, ... -/
def sStage (n : Nat) : State := { State.reset with data := buf 256 (upFrom 0x10 n), datalen := len n }

/-- A context with all six fields set, all zero, and an empty challenge (V-V10). -/
def sFull : State := { State.reset with present := 0b111111 }

/-- The two enciphered pads of P1. -/
def pEipad : List Byte :=
  [0x1A, 0x1A, 0x84, 0xEB, 0x76, 0xC6, 0xD6, 0xF1, 0x6C, 0x01, 0x9B, 0xD3, 0xFE, 0xEB, 0x62, 0x68]
  ++ [0x04, 0xB9, 0x96, 0x72, 0xDD, 0x5B, 0x67, 0x08, 0xC6, 0xD1, 0xE9, 0x7D, 0x3B, 0x89, 0x79, 0x83]
  ++ [0x80, 0xBA, 0x5D, 0x74, 0x6F, 0x40, 0xC2, 0x63, 0xCB, 0x6F, 0x20, 0x33, 0x96, 0xB4, 0xE1, 0x89]
  ++ [0x4F, 0x0A, 0x7C, 0xB1, 0x68, 0xC7, 0xCD, 0xCB, 0x83, 0xB5, 0xDE, 0xC2, 0x4D, 0x85, 0x8A, 0xB3]

def pEopad : List Byte :=
  [0x70, 0x70, 0xEE, 0x81, 0x1C, 0xAC, 0xBC, 0x9B, 0x06, 0x6B, 0xF1, 0xB9, 0x94, 0x81, 0x08, 0x02]
  ++ [0x6E, 0xD3, 0xFC, 0x18, 0xB7, 0x31, 0x0D, 0x62, 0xAC, 0xBB, 0x83, 0x17, 0x51, 0xE3, 0x13, 0xE9]
  ++ [0xEA, 0xD0, 0x37, 0x1E, 0x05, 0x2A, 0xA8, 0x09, 0xA1, 0x05, 0x4A, 0x59, 0xFC, 0xDE, 0x8B, 0xE3]
  ++ [0x25, 0x60, 0x16, 0xDB, 0x02, 0xAD, 0xA7, 0xA1, 0xE9, 0xDF, 0xB4, 0xA8, 0x27, 0xEF, 0xE0, 0xD9]

/-- The response of P1. -/
def pResp : List Byte :=
  [0xED, 0x30, 0x51, 0xE7, 0x6E, 0xD8, 0xAC, 0xAD, 0x1D, 0x2A, 0x31, 0x16, 0x1D, 0x99, 0x25, 0x7C]
  ++ [0xC7, 0xDA, 0x73, 0x1B, 0x82, 0x8D, 0x76, 0x44, 0xD6, 0xD5, 0xA8, 0x6A, 0xC9, 0xFC, 0x82, 0x3E]

/-- The context of P2 before line 13. -/
def sBundle : State :=
  { sFull with
    kekh1 := buf 16 (upFrom 0x10 16)
    kekh2 := buf 16 (upFrom 0x20 16)
    eipad := buf 64 pEipad
    eopad := buf 64 pEopad
    chal := buf 256 (upFrom 0xA0 32)
    challen := len 32
    expresp := buf 32 pResp }

/-! Decoding: each code written bit by bit, `grp` then `fn` (R90, R94). -/

theorem test_decode_nop : decode 0b00000000 = .ok .nop := by decide
theorem test_decode_clrctx : decode 0b00000001 = .ok .clrctx := by decide
theorem test_decode_padkey : decode 0b00010000 = .ok .padkey := by decide
theorem test_decode_derive : decode 0b00010001 = .ok .derive := by decide
theorem test_decode_xorpads : decode 0b00010010 = .ok .xorpads := by decide
theorem test_decode_hash : decode 0b00010011 = .ok .hash := by decide
theorem test_decode_hmac : decode 0b00010100 = .ok .hmac := by decide
theorem test_decode_cipher : decode 0b00010101 = .ok .cipher := by decide
theorem test_decode_cipheri : decode 0b00010110 = .ok .cipheri := by decide
theorem test_decode_ciphero : decode 0b00010111 = .ok .ciphero := by decide
theorem test_decode_setkek1 : decode 0b00100000 = .ok .setkek1 := by decide
theorem test_decode_setkek2 : decode 0b00100001 = .ok .setkek2 := by decide
theorem test_decode_seteipad : decode 0b00100010 = .ok .seteipad := by decide
theorem test_decode_seteopad : decode 0b00100011 = .ok .seteopad := by decide
theorem test_decode_setchal : decode 0b00100100 = .ok .setchal := by decide
theorem test_decode_setresp : decode 0b00100101 = .ok .setresp := by decide
theorem test_decode_verify : decode 0b00101111 = .ok .verify := by decide

/-- The codes around the gaps of R97 (V-C4). -/
theorem test_decode_unknown :
    ∀ b ∈ [0x02#8, 0x0F#8, 0x18#8, 0x1F#8, 0x26#8, 0x2E#8, 0x30#8, 0x80#8, 0xFF#8],
      decode b = .error (.unknownCommand b) := by decide

theorem test_decodeTableWord : decodeTableWord 8 0x2F = some .verify ∧ decodeTableWord 8 0x02 = none ∧
    decodeTableWord 16 0x11 = none ∧ decodeTableWord 8 0x111 = none := by decide

/-- The placed word is what the next step runs: `DERIVE` on the reset state (V-P8). -/
theorem test_withFetchWord :
    after (step (State.reset.withFetchWord 8 0x11)) (fun t => t.cmd == 0x11 && !t.busy && t.done
      && t.ipad == .rep _ 0x36 && t.opad == .rep _ 0x5C && t.pkey == .rep _ 0x00) = true := by decide +kernel

/-! Well-formedness: an ill-formed term for each check, and the neighbour that is well formed. -/

theorem test_illformed_wr_index : (HostStmt.wr (.named .secret 64) 0).wellFormed = false ∧
    (HostStmt.wr (.named .secret 63) 0).wellFormed = true := by decide
theorem test_illformed_rd_index : (HostStmt.rd (.named .status 1)).wellFormed = false ∧
    (HostStmt.rd (.named .status 0)).wellFormed = true := by decide
theorem test_illformed_expect_index : (HostStmt.expect (.named .digest 32) 0).wellFormed = false ∧
    (HostStmt.expect (.named .digest 31) 0).wellFormed = true := by decide
theorem test_illformed_wrbuf_readOnly : (HostStmt.wrbuf .pkey [1]).wellFormed = false ∧
    (HostStmt.wrbuf .ipad [1]).wellFormed = true := by decide
theorem test_illformed_wrbuf_notBuffer : (HostStmt.wrbuf .seclen [1]).wellFormed = false := by decide
theorem test_illformed_wrbuf_long : (HostStmt.wrbuf .secret (List.replicate 65 0)).wellFormed = false ∧
    (HostStmt.wrbuf .secret (List.replicate 64 0)).wellFormed = true := by decide +kernel
theorem test_illformed_wrlen_seclen : (HostStmt.wrlen .seclen 256).wellFormed = false ∧
    (HostStmt.wrlen .seclen 255).wellFormed = true := by decide +kernel
theorem test_illformed_wrlen_long : (HostStmt.wrlen .keylen 65536).wellFormed = false ∧
    (HostStmt.wrlen .keylen 65535).wellFormed = true := by decide +kernel
theorem test_illformed_stage_long : (HostStmt.stage (List.replicate 257 0)).wellFormed = false ∧
    (HostStmt.stage (List.replicate 256 0)).wellFormed = true := by decide +kernel
theorem test_illformed_rdbuf_long : (HostStmt.rdbuf .digest 33).wellFormed = false ∧
    (HostStmt.rdbuf .digest 32).wellFormed = true := by decide

/-! One step of each command. -/

/-- V-C2, and no error stays (V-C5). -/
theorem test_nop_record : after (exec .nop { State.reset with errcode := .badLength, missing := 1, busy := true })
    (fun t => t.status == 0x02 && t.errcode == .ok && t.missing == 0) = true := by decide +kernel

/-- V-C9: the context goes, the primitive registers stay. -/
theorem test_clrctx_empties : after (exec .clrctx { sBundle with verified := true, matched := true, keylen := len 32 })
    (fun t => t.status == 0x02 && t.present == 0 && t.vstate == .empty && t.challen == len 0 && t.kekh1 == .rep _ 0
      && t.chal.bytes == List.replicate 256 0 && t.expresp == .rep _ 0 && t.keylen == len 32) = true := by decide +kernel

/-- V-P6: bytes beyond `SECLEN` do not reach `PKEY`. -/
theorem test_padkey_stale : after (exec .padkey { sJefe with secret := (Buf.rep 64 0xEE).put 0 [0x4A, 0x65, 0x66, 0x65] })
    (fun t => t.pkey == buf 64 [0x4A, 0x65, 0x66, 0x65] && t.secret.get 4 == 0xEE) = true := by decide +kernel

/-- V-P2. -/
theorem test_derive_pads : after (exec .derive sJefe)
    (fun t => t.pkey == buf 64 [0x4A, 0x65, 0x66, 0x65] && t.ipad == (Buf.rep 64 0x36).put 0 [0x7C, 0x53, 0x50, 0x53]
      && t.opad == (Buf.rep 64 0x5C).put 0 [0x16, 0x39, 0x3A, 0x39]) = true := by decide +kernel

/-- V-P4, V-P3: a length above 64 is 64. -/
theorem test_derive_truncates : after (exec .derive { State.reset with secret := buf 64 (upFrom 0 64), seclen := 255 })
    (fun t => t.pkey.bytes == upFrom 0 64 && t.ipad.get 63 == 0x09 && t.opad.get 63 == 0x63) = true := by decide +kernel

/-- V-P9: any register contents, pair or not. -/
theorem test_xorpads_any : after (exec .xorpads { State.reset with ipad := .rep _ 0xFF })
    (fun t => t.kpdiag == .rep _ 0xFF && t.ipad == .rep _ 0xFF) = true := by decide +kernel

/-- V-H14. -/
theorem test_hash_abc : after (exec .hash sAbc) (fun t => t.inner == .rep _ 0 && t.digest.bytes ==
    [0xBA, 0x78, 0x16, 0xBF, 0x8F, 0x01, 0xCF, 0xEA, 0x41, 0x41, 0x40, 0xDE, 0x5D, 0xAE, 0x22, 0x23,
     0xB0, 0x03, 0x61, 0xA3, 0x96, 0x17, 0x7A, 0x9C, 0xB4, 0x10, 0xFF, 0x61, 0xF2, 0x00, 0x15, 0xAD]) = true := by
  decide +kernel

/-- V-H16. -/
theorem test_hash_too_long : after (exec .hash { sAbc with msglen := len 257 })
    (fun t => t.status == 0x06 && t.errcode == .badLength && t.digest == .rep _ 0) = true := by decide +kernel

/-- V-M1: zero pads, empty message. -/
theorem test_hmac_zero : after (exec .hmac State.reset) (fun t =>
    t.inner.slice 0 4 == [0xF5, 0xA5, 0xFD, 0x42] && t.inner.slice 28 32 == [0x27, 0x59, 0xFB, 0x4B] &&
    t.digest.slice 0 4 == [0x36, 0x12, 0xC2, 0xA5] && t.digest.slice 28 32 == [0x0E, 0xA2, 0x98, 0x41]) = true := by
  decide +kernel

/-- V-S1, P4: the known answer, and the byte behind `DATALEN` stays. -/
theorem test_cipher_known : after (exec .cipher sKey) (fun t =>
    t.data.slice 0 11 == [0xBB, 0xF3, 0x16, 0xE8, 0xD9, 0x40, 0xAF, 0x0A, 0xD3, 0xAA, 0x00] && t.status == 0x02) = true := by
  rw [exec, execCipher, keyOperand_ok (s := sKey) (by decide +kernel) (by decide +kernel),
    dataOperand_ok (s := sKey) (by decide +kernel)]
  simp only [sc_eq_treeSc]
  decide +kernel

/-- R238: with a zero-length key the error is `InvalidKey`, also when `DATALEN` is illegal. -/
theorem test_cipher_zero_key : after (exec .cipher { sKey with keylen := len 0, datalen := len 257 })
    (fun t => t.errcode == .invalidKey && t.data.bytes == sKey.data.bytes) = true := by decide +kernel

/-- V-S5. -/
theorem test_cipheri_pad : after (exec .cipheri { sKey with ipad := .rep _ 0x36 }) (fun t =>
    t.ipad.slice 0 8 == [0xDD, 0xA9, 0x41, 0xB7, 0x81, 0x02, 0xFC, 0x44] && t.ipad.slice 62 64 == [0x38, 0x5A]) = true := by
  rw [exec, execCipheri, keyOperand_ok (by decide) (by decide)]
  simp only [scPad, sc_eq_treeSc]
  decide +kernel

/-- V-S9. -/
theorem test_ciphero_pad : after (exec .ciphero { sKey with opad := .rep _ 0x5C }) (fun t =>
    t.opad.slice 0 8 == [0xB7, 0xC3, 0x2B, 0xDD, 0xEB, 0x68, 0x96, 0x2E] && t.ipad == .rep _ 0) = true := by
  rw [exec, execCiphero, keyOperand_ok (by decide) (by decide)]
  simp only [scPad, sc_eq_treeSc]
  decide +kernel

/-- R202: the field, its bit, and a verified context becomes stale. -/
theorem test_setkek1_sets : after (exec .setkek1 { sStage 16 with verified := true, matched := true, present := 0b111111 })
    (fun t => t.kekh1.bytes == upFrom 0x10 16 && t.present == 0b111111 && !t.verified && !t.matched
      && t.vstate == .readyToVerify) = true := by decide +kernel

/-- V-V3: 15 staged bytes are refused and nothing is set. -/
theorem test_setkek1_short : after (exec .setkek1 (sStage 15))
    (fun t => t.status == 0x06 && t.errcode == .badLength && t.present == 0 && t.kekh1 == .rep _ 0) = true := by decide +kernel

theorem test_setkek2_sets : after (exec .setkek2 (sStage 16))
    (fun t => t.kekh2.bytes == upFrom 0x10 16 && t.kekh1 == .rep _ 0 && t.present == 0b000010) = true := by decide +kernel

theorem test_seteipad_sets : after (exec .seteipad (sStage 64))
    (fun t => t.eipad.bytes == upFrom 0x10 64 && t.eopad == .rep _ 0 && t.present == 0b000100) = true := by decide +kernel

theorem test_seteopad_sets : after (exec .seteopad (sStage 64))
    (fun t => t.eopad.bytes == upFrom 0x10 64 && t.eipad == .rep _ 0 && t.present == 0b001000) = true := by decide +kernel

/-- V-V4: no tail of an older challenge stays. -/
theorem test_setchal_no_tail : after (exec .setchal { sStage 8 with chal := .rep _ 0xCC, challen := len 40 })
    (fun t => t.chal.bytes == upFrom 0x10 8 ++ List.replicate 248 0 && t.challen == len 8 && t.present == 0b010000) = true := by decide +kernel

theorem test_setresp_sets : after (exec .setresp (sStage 32))
    (fun t => t.expresp.bytes == upFrom 0x10 32 && t.present == 0b100000) = true := by decide +kernel

/-- V-V1 and P5: the mask of the absent fields, and nothing computed. -/
theorem test_verify_missing : after (exec .verify { sBundle with present := 0b101101 })
    (fun t => t.status == 0x06 && t.errcode == .missingField && t.missing == 0x12 && t.keylen == len 0
      && t.digest == .rep _ 0) = true := by decide +kernel

/-- P2 line 13. -/
theorem test_verify_bundle : after (exec .verify sBundle) (fun t =>
    t.status == 0x1A && t.vstate == .verifiedSuccess && t.digest.bytes == pResp && t.kpdiag == .rep _ 0x6A
      && t.ipad.slice 0 4 == [0x36, 0x37, 0x34, 0x35] && t.opad.slice 62 64 == [0x62, 0x63]
      && t.key.slice 0 33 == upFrom 0x10 32 ++ [0] && t.keylen == len 32) = true := by
  rw [exec, execVerify, if_neg (by decide)]
  simp only [State.decryptPads, scPad, sc_eq_treeSc]
  decide +kernel

/-- V-C8: while `BUSY` = 1 a write is dropped and sets `WRBUSY`; then a write of 0x20 to `STATUS` clears it. -/
theorem test_busy_write_dropped : memWrite 0x040 0xFF (sJefe.accept 0x11) = { sJefe.accept 0x11 with wrbusy := true } ∧
    memWrite 0x001 0x20 { State.reset with done := true, wrbusy := true } = { State.reset with done := true } :=
  ⟨rfl, rfl⟩

/-- V-C8: what `STATUS` reads as while busy with a dropped write, for any free byte: bits 4 to 2 are the free ones. -/
theorem test_busy_status :
    ∀ free : Byte, { sJefe.accept 0x11 with wrbusy := true }.busyByteAt free 0x001 = 0x21 ||| (free &&& 0x1C) := by
  decide +kernel

/-- V-C6, V-C7: read-only and reserved addresses, and the other bits of `STATUS`, take no write. -/
theorem test_readOnly_writes :
    ∀ a ∈ [0x080#12, 0x002, 0x004, 0x00E, 0x500, 0x600, 0x007, 0x010, 0x1C0, 0xFFF, 0x001],
      memWrite a 0xFF State.reset = State.reset := by
  simp only [List.forall_mem_cons]
  exact ⟨rfl, rfl, rfl, rfl, rfl, rfl, rfl, rfl, rfl, rfl, rfl, fun _ h => absurd h List.not_mem_nil⟩

/-- V-rule R2: a reset while a command is pending abandons it. -/
theorem test_reset_abandons : step { sAbc.accept 0x13 with turns := [.reset] } = .next State.reset := rfl

/-! Witnesses: a state (and operands) that meets all hypotheses of each statement that has some. -/

theorem witness_StepRunsAcceptedCommand :
    (sJefe.accept 0x11).busy = true ∧ (sJefe.accept 0x11).mover = .engine ∧ decode (sJefe.accept 0x11).cmd = .ok .derive := by
  decide +kernel

theorem witness_UnknownCommandStep : (sJefe.accept 0x02).busy = true ∧ (sJefe.accept 0x02).mover = .engine ∧
    ∀ i, (sJefe.accept 0x02).cmd ≠ encode i :=
  ⟨rfl, rfl, fun i => by cases i <;> decide⟩

theorem witness_ErrorCauses : decode (sJefe.accept 0xFF).cmd = .error (.unknownCommand 0xFF) ∧
    ∀ e : ErrCode, ∃ s : State, s.busy = false ∧ s.errcode = e :=
  ⟨by decide +kernel, fun e => ⟨{ sJefe with errcode := e }, rfl, rfl⟩⟩

/-- A pending command and a pending unknown byte. -/
theorem witness_CompletionRecordAlways : ∀ c ∈ [0x2F#8, 0x02#8],
    (sJefe.accept c).busy = true ∧ (sJefe.accept c).mover = .engine := fun _ _ => ⟨rfl, rfl⟩

theorem witness_MessageScheduleRecurrence : (upFrom 0 64).length = 64 := by decide +kernel

theorem witness_OpcodeMapWords : 0x02#8 ∉
    [0x00#8, 0x01, 0x10, 0x11, 0x12, 0x13, 0x14, 0x15, 0x16, 0x17, 0x20, 0x21, 0x22, 0x23, 0x24, 0x25, 0x2F] := by decide

theorem witness_ResetReplacesState : State.mover { sJefe.accept 0x11 with turns := [.reset, .host] } = .reset := rfl

/-- The invariant of a state as reset, but for a `PRESENT` mask. -/
theorem present_inv (p : BitVec 6) : { State.reset with present := p }.Inv :=
  ⟨fun h => absurd h Bool.false_ne_true, fun h => absurd h Bool.false_ne_true, fun h => absurd h Bool.false_ne_true,
    by simp [State.reset, Len16.zero, Len16.val], fun i _ => Buf.get_rep i, by simp [State.reset], fun _ => rfl, fun _ => rfl,
    fun _ => rfl, fun _ => rfl, fun _ => ⟨rfl, rfl⟩, fun _ => rfl, fun h => absurd h Bool.false_ne_true⟩

/-- A context that is verified, and a pending command: both meet the invariant, and step. -/
theorem witness_StepKeepsInvariant :
    (let s : State := { sFull with verified := true, matched := sFull.candidate == sFull.expresp, busy := true }
     s.Inv ∧ ∃ t, step s = .next t) := by
  refine ⟨⟨fun _ => rfl, fun _ => rfl, fun _ => rfl, by decide, fun i _ => Buf.get_rep i, ?_, fun _ => rfl, fun _ => rfl,
    fun _ => rfl, fun _ => rfl, fun _ => ⟨rfl, rfl⟩, fun _ => rfl, fun _ => rfl⟩, _, rfl⟩
  decide

/-- `MissingField` in a state that meets the invariant. -/
theorem witness_MissingFieldLeavesUnverified :
    State.reset.Inv ∧ ∃ t, exec .verify State.reset = .next t ∧ t.errcode = .missingField :=
  ⟨present_inv 0, _, rfl, rfl⟩

theorem witness_PadPairCancels : ∀ n ∈ [1, 256], 0 < (len n).val ∧ (len n).val ≤ 256 := by decide

theorem witness_HashWritesDigest : (upFrom 0 64).length = 64 ∧ (len 256).val ≤ 256 ∧ 256 < (len 257).val ∧
    256 < (len 65535).val ∧ (len 0).val ≤ 256 := by
  decide +kernel

theorem witness_HmacHashesTwice : { sAbc with msglen := len 256 }.msglen.val ≤ 256 ∧
    256 < { sAbc with msglen := len 257 }.msglen.val := by decide

theorem witness_CipherSelfInverse : 0 < sKey.keylen.val ∧ sKey.keylen.val ≤ 256 ∧ sKey.datalen.val ≤ 256 := by decide

theorem witness_KeystreamCancels : ([0x00, 0xFF] : List Byte).length = ([0x12, 0x34] : List Byte).length := rfl

/-- The keys "Key" and "KeyKey". -/
theorem witness_RepeatedKeyActsAlike : ∃ k k' : CipherKey, k'.bytes = (List.replicate 2 k.bytes).flatten :=
  ⟨⟨[0x4B, 0x65, 0x79], by decide, by decide⟩, ⟨[0x4B, 0x65, 0x79, 0x4B, 0x65, 0x79], by decide, by decide⟩, rfl⟩

/-- Hypotheses of `KeyScheduleIsPermutation`: the last table, and equal entries, at one index. -/
theorem witness_KeyScheduleIsPermutation (S : Nat → Nat → Nat) : 255 < 256 ∧ 256 ≤ 256 ∧ S 256 255 = S 256 255 := by simp

/-- A pair of plain pads and a pair of enciphered ones, of the secret "Jefe". -/
theorem witness_XorpadsWritesDiagnostic (c : CipherKey) : ∃ s s' : State,
    s.ipad = (derivePads [0x4A, 0x65, 0x66, 0x65]).1 ∧ s.opad = (derivePads [0x4A, 0x65, 0x66, 0x65]).2 ∧
    s'.ipad = scPad c (derivePads [0x4A, 0x65, 0x66, 0x65]).1 ∧ s'.opad = scPad c (derivePads [0x4A, 0x65, 0x66, 0x65]).2 :=
  ⟨{ sJefe with ipad := (derivePads [0x4A, 0x65, 0x66, 0x65]).1, opad := (derivePads [0x4A, 0x65, 0x66, 0x65]).2 },
   { sJefe with ipad := scPad c (derivePads [0x4A, 0x65, 0x66, 0x65]).1
                opad := scPad c (derivePads [0x4A, 0x65, 0x66, 0x65]).2 }, rfl, rfl, rfl, rfl⟩

/-- Each clause, at the ends of its range: lengths 1 and 256, key length 0, key length 257, data length 257. -/
theorem witness_CipherEnciphersData :
    (∀ n ∈ [1, 256], 0 < (len n).val ∧ (len n).val ≤ 256) ∧ (len 0).val = 0 ∧ 256 < (len 257).val ∧ 0 < (len 257).val := by decide

theorem witness_CipheriEnciphersInnerPad : 0 < sKey.keylen.val ∧ sKey.keylen.val ≤ 256 ∧
    { sKey with keylen := len 0 }.keylen.val = 0 ∧ 256 < { sKey with keylen := len 257 }.keylen.val := by decide

theorem witness_CipheroEnciphersOuterPad : 0 < { sKey with keylen := len 1 }.keylen.val ∧
    { sKey with keylen := len 256 }.keylen.val ≤ 256 ∧ { sKey with keylen := len 0 }.keylen.val = 0 ∧
    256 < { sKey with keylen := len 257 }.keylen.val := by decide

theorem witness_SetKekHalves : (sStage 16).datalen.val = 16 ∧ (sStage 15).datalen.val ≠ 16 ∧ (sStage 17).datalen.val ≠ 16 := by
  decide

theorem witness_SetEncryptedPads : (sStage 64).datalen.val = 64 ∧ (sStage 63).datalen.val ≠ 64 ∧ (sStage 65).datalen.val ≠ 64 := by
  decide

theorem witness_SetChallenge : (sStage 0).datalen.val ≤ 256 ∧ (sStage 256).datalen.val ≤ 256 ∧
    256 < { sStage 256 with datalen := len 257 }.datalen.val := by decide

theorem witness_SetExpectedResponse : (sStage 32).datalen.val = 32 ∧ (sStage 31).datalen.val ≠ 32 ∧ (sStage 33).datalen.val ≠ 32 := by
  decide

theorem witness_VerifyRecomputesAndCompares : sBundle.present = 0b111111 ∧ sBundle.challen.val ≤ 256 ∧
    { sFull with challen := len 256 }.challen.val ≤ 256 ∧ { sBundle with present := 0b011111 }.present ≠ 0b111111 := by
  decide

theorem witness_VerifyIsRepeatable : sBundle.present = 0b111111 ∧
    ∀ i ∈ [Instr.derive, .hmac, .cipher, .nop], i.isPrimitive = true := by decide

/-- Pads of 0x36 and 0x5C enciphered under the zero KEK, the empty challenge, and the digest over them. -/
def sRound : State :=
  { sFull with
    eipad := scPad sFull.kek (.rep _ 0x36)
    eopad := scPad sFull.kek (.rep _ 0x5C)
    expresp := (hmacF (.rep _ 0x36) (.rep _ 0x5C) []).2 }

theorem witness_RoundTripVerifies : ∃ (ip op : Buf 64), sRound.present = 0b111111 ∧ sRound.challen.val ≤ 256 ∧
    sRound.eipad.bytes = sc sRound.kek ip.bytes ∧ sRound.eopad.bytes = sc sRound.kek op.bytes ∧
    sRound.expresp = (hmacF ip op ((List.range sRound.challen.val).map sRound.chal.get)).2 := by
  have hk : sRound.kek = sFull.kek := kek_congr rfl rfl
  refine ⟨.rep _ 0x36, .rep _ 0x5C, rfl, by decide, ?_, ?_, rfl⟩
  · rw [hk]
    exact scPad_bytes _ _
  · rw [hk]
    exact scPad_bytes _ _

/-- A builder with a 32-byte key, and, for every end state of it, a validator whose fields are the builder's values. -/
theorem witness_BundleRoundTrip :
    let b : State := { sJefe with key := buf 256 (upFrom 0x10 32), keylen := len 32, msg := .rep _ 0xA0, msglen := len 256 }
    b.keylen.val = 32 ∧ b.msglen.val ≤ 256 ∧
    ∀ e : State, ∃ v : State, v.present = 0b111111 ∧
      (∀ i < 16, v.kekh1.get i = b.key.get i ∧ v.kekh2.get i = b.key.get (16 + i)) ∧
      v.eipad = e.eipad ∧ v.eopad = e.eopad ∧ v.challen = b.msglen ∧
      (∀ i < b.msglen.val, v.chal.get i = b.msg.get i) ∧ v.expresp = e.digest := by
  have h : ∀ i < 16, (buf 16 (upFrom 0x10 16)).get i = (buf 256 (upFrom 0x10 32)).get i ∧
      (buf 16 (upFrom 0x20 16)).get i = (buf 256 (upFrom 0x10 32)).get (16 + i) := by decide +kernel
  exact ⟨by decide, by decide, fun e => ⟨{ sBundle with
    eipad := e.eipad, eopad := e.eopad, challen := len 256, chal := .rep _ 0xA0, expresp := e.digest }, rfl, h, rfl, rfl, rfl,
    fun _ _ => rfl, rfl⟩⟩

theorem witness_VerifyByPrimitives :
    let p : State := { State.reset with
      key := buf 256 (upFrom 0x10 32), keylen := len 32, ipad := sBundle.eipad, opad := sBundle.eopad
      msg := sBundle.chal, msglen := len 32 }
    sBundle.present = 0b111111 ∧ sBundle.challen.val ≤ 256 ∧
    (∀ i < 16, p.key.get i = sBundle.kekh1.get i ∧ p.key.get (16 + i) = sBundle.kekh2.get i) ∧ p.keylen.val = 32 ∧
    p.ipad = sBundle.eipad ∧ p.opad = sBundle.eopad ∧ p.msglen = sBundle.challen ∧
    (∀ i < sBundle.challen.val, p.msg.get i = sBundle.chal.get i) := by
  refine ⟨by decide, by decide, by decide +kernel, by decide, rfl, rfl, rfl, fun _ _ => rfl⟩

/-- A context with all fields set meets the invariant with any expected response and the comparison's verdict. -/
theorem verdict_inv (x : Buf 32) (m : Bool) (h : m = (sFull.candidate == x)) :
    ∃ s : State, s.vstate = (if m then .verifiedSuccess else .verifiedFailure) ∧ s.Inv :=
  have b : sFull.Inv := present_inv _
  ⟨{ sFull with expresp := x, verified := true, matched := m }, by cases m <;> rfl,
    b.busy_done, fun _ => rfl, fun _ => rfl, b.challen_le, b.chal_tail, b.missing_iff, b.absent_kekh1, b.absent_kekh2,
    b.absent_eipad, b.absent_eopad, b.absent_chal, fun h => absurd (show sFull.present.getLsbD 5 = false from h) (by decide),
    fun _ => h⟩

/-- A buffer with its lowest bits flipped is another one. -/
theorem flipped_ne (c : Buf 32) : false = (c == c.xor (.rep 32 1)) := by
  have flip : ∀ b : Byte, b ≠ b ^^^ 1 := by decide
  have ne : c ≠ c.xor (.rep 32 1) := fun e => flip (c.get 0) (by
    have := congrArg (fun b => Buf.get b 0) e
    simpa only [Buf.get_xor, Buf.get_rep_lt 1 (show 0 < 32 by decide)] using this)
  exact (beq_false_of_ne ne).symm

/-- Each of the five validator states has a state that meets the invariant (R39, R200). In the last, one bit of the expected
response is wrong. -/
theorem witness_ValidatorTransitions :
    (State.reset.vstate = .empty ∧ State.reset.Inv) ∧
    (let s : State := { State.reset with present := 1 }
     s.vstate = .partiallyProvisioned ∧ s.Inv) ∧
    (sFull.vstate = .readyToVerify ∧ sFull.Inv) ∧
    (∃ s : State, s.vstate = .verifiedSuccess ∧ s.Inv) ∧
    (∃ s : State, s.vstate = .verifiedFailure ∧ s.Inv) ∧
    State.mover { sJefe with turns := [.reset] } = .reset :=
  ⟨⟨by decide, present_inv 0⟩, ⟨by decide, present_inv 1⟩, ⟨by decide, present_inv 0b111111⟩,
    verdict_inv sFull.candidate true (beq_self_eq_true _).symm, verdict_inv _ false (flipped_ne _), rfl⟩

theorem witness_SetsAreIndependent : Instr.setkek1.isSet = true ∧ Instr.setchal.isSet = true ∧ Instr.setkek1 ≠ .setchal ∧
    after (exec .setkek1 (State.reset.staged (buf 256 (upFrom 0x10 16)) (len 16))) (fun t => t.errcode == .ok) = true := by
  decide +kernel

/-- Each error of R231 to R234 is recorded by some command in some state, and so is none. -/
theorem witness_ErrorsArePrecise :
    after (exec .cipher State.reset) (fun t => t.errcode == .invalidKey) = true ∧
    after (exec .hash { sAbc with msglen := len 257 }) (fun t => t.errcode == .badLength) = true ∧
    after (exec .verify State.reset) (fun t => t.errcode == .missingField) = true ∧
    after (exec .nop State.reset) (fun t => t.errcode == .ok) = true := by decide +kernel

/-- An address of a register that `DERIVE` does not write, and a reserved one. -/
theorem witness_FrameByAddress : (∃ t, exec .derive sJefe = .next t) ∧ locate 0x040 = some (.secret, 0) ∧
    Reg.secret ∉ recordRegs ∧ Reg.secret ∉ writtenBy .derive ∧ locate 0x007 = none := by
  refine ⟨⟨_, rfl⟩, by decide, by decide, by decide, by decide⟩

/-- Two states that differ in `PKEY` and `KEY` agree on what `HASH` reads. -/
theorem witness_CommandsReadOnlyTheirOperands :
    ∀ r ∈ readsOf .hash, ∀ j < r.size, sAbc.regByte r j = { sAbc with pkey := .rep _ 1, key := .rep _ 2 }.regByte r j := by
  intro r hr j _
  simp only [readsOf, List.mem_cons, List.not_mem_nil, or_false] at hr
  rcases hr with rfl | rfl | rfl <;> rfl

/-- Buffers that differ behind the lengths 4, 3, 3 and 9 only. -/
theorem witness_StaleBytesHaveNoInfluence :
    (∀ i < sJefe.seclen.toNat, (sJefe.secret.set 4 0xEE).get i = sJefe.secret.get i) ∧
    (∀ i < sAbc.msglen.val, (sAbc.msg.set 3 0xFF).get i = sAbc.msg.get i) ∧
    (∀ i < sKey.keylen.val, (sKey.key.set 3 0xFF).get i = sKey.key.get i) ∧
    (∀ i < sKey.datalen.val, (sKey.data.set 9 0xFF).get i = sKey.data.get i) := by decide +kernel

/-- Idle states, and the last offset of each width. -/
theorem witness_IdleReadsFollowTheMap_StatusBits_VstateValues : State.reset.busy = false ∧ sBundle.busy = false ∧ 63 < 64 ∧ 31 < 32 ∧ 15 < 16 ∧ 255 < 256 := by decide

/-- Reserved addresses at the ends of the four ranges of R71, and neighbours that are not reserved. -/
theorem witness_ReservedReadsZero :
    (∀ n ∈ [0x007, 0x010, 0x03F, 0x1C0, 0x1FF, 0x6C0, 0xFFF], reserved n = true) ∧
    (∀ n ∈ [0x006, 0x008, 0x00F, 0x040, 0x1BF, 0x200, 0x6BF], reserved n = false) := by decide

theorem witness_BusyReads : (sJefe.accept 0x11).busy = true ∧ { sJefe.accept 0x11 with wrbusy := true }.busy = true := by decide

/-- A read, idle and busy. -/
theorem witness_ReadsChangeNothing :
    State.mover { sJefe with program := [.rd 0x001] } = .host ∧
    State.mover { sJefe.accept 0x11 with program := [.rd 0x1A0], turns := [.host] } = .host := by decide

/-- The ends of the read-write ranges, and read-only and reserved neighbours. -/
theorem witness_HostWriteEffect :
    (∀ n ∈ [0x006, 0x008, 0x00D, 0x040, 0x07F, 0x0C0, 0x0FF, 0x100, 0x13F, 0x200, 0x4FF], storedByHost n = true) ∧
    (∀ n ∈ [0x000, 0x001, 0x002, 0x007, 0x00E, 0x00F, 0x080, 0x0BF, 0x140, 0x1BF, 0x500, 0x6BF, 0xFFF], storedByHost n = false) ∧
    sJefe.busy = false ∧ (sJefe.accept 0x11).busy = true := by decide +kernel

theorem witness_LengthRegisters : State.reset.busy = false ∧ State.reset.turns = [] ∧ 65535 < 65536 := by decide

theorem witness_WrbufStoresBytes : State.reset.busy = false ∧ State.reset.turns = [] ∧
    (HostStmt.wrbuf .key (List.replicate 256 1)).wellFormed = true ∧ (HostStmt.wrbuf .ipad []).wellFormed = true := by
  decide +kernel

theorem witness_RunPerformsCommand : sJefe.busy = false ∧ sJefe.turns = [] := by decide

/-- A program of one `RUN` under a schedule with spare engine turns. -/
theorem witness_DisciplinedLosesNoWrite :
    let s : State := { (sJefe.withProgram [.run .derive]) with turns := [.engine, .host, .engine, .engine, .host] }
    s.busy = false ∧ s.wrbusy = false ∧ disciplined s.program = true ∧ Turn.reset ∉ s.turns ∧
      ∃ t, runSteps 5 s = .next t :=
  ⟨rfl, rfl, by decide, by decide, _, rfl⟩

/-- The same program under the empty schedule and under another: both runs end. -/
theorem witness_ScheduleDoesNotMatter :
    let s : State := sJefe.withProgram [.run .derive]
    let us : List Turn := [.engine, .host, .engine, .engine, .host]
    s.busy = false ∧ disciplined s.program = true ∧ Turn.reset ∉ us ∧
      (∃ a, runSteps 3 { s with turns := [] } = .next a ∧ a.ended) ∧
      ∃ b, runSteps 5 { s with turns := us } = .next b ∧ b.ended :=
  ⟨rfl, by decide, by decide, ⟨_, rfl, rfl, rfl⟩, ⟨_, rfl, rfl, rfl⟩⟩

end Sys2Proof.Tests
end

section
/-! PROOFS. What the host reads from the block (10_state.md, R20 to R58): the reset state, `STATUS` and `VSTATE`. -/

namespace Sys2Proof.Machine

/-- While `BUSY` = 0 the host reads byte `i` of a register at its address (R62, R70). -/
theorem memRead_addr_idle {s : State} (hb : s.busy = false) (r : Reg) {i : Nat} (hi : i < r.size) :
    memRead (r.addr i) s = s.regByte r i := by
  rw [memRead_idle hb, byteAt_addr s r hi]

/-! The reset state (R58). -/

theorem regByte_reset (r : Reg) (i : Nat) : State.reset.regByte r i = 0 := by
  cases r
  case secret | pkey | ipad | opad | kpdiag | inner | digest | key | data | msg => exact Buf.get_rep i
  case chal | kekh1 | kekh2 | expresp | eipad | eopad => exact Buf.get_rep i
  all_goals rfl

theorem byteAt_reset (a : Addr) : State.reset.byteAt a = 0 := by
  cases h : locate a with
  | none => exact byteAt_none _ h
  | some p => simpa [State.byteAt, h] using regByte_reset p.1 p.2

/-- Settles O8: a register byte is 0 at reset whatever its offset, and a reserved address always reads 0. -/
theorem resetReadsZero : Obligations.ResetReadsZero := fun a => by
  rw [memRead_idle rfl, byteAt_reset]

/-! `STATUS` (R22). -/

/-- The bits of `STATUS` from bit 0 up (R22). `change` gives the width as the sum that the appended fields have. -/
theorem getLsbD_packStatus (wrbusy matched verified err done busy : Bool) (k : Nat) :
    (packStatus wrbusy matched verified err done busy).getLsbD k =
      [busy, done, err, verified, matched, wrbusy].getD k false := by
  change BitVec.getLsbD (w := 2 + 1 + 1 + 1 + 1 + 1 + 1) _ k = _
  simp only [packStatus, BitVec.getLsbD_append, BitVec.getLsbD_ofBool]
  match k with
  | 0 | 1 | 2 | 3 | 4 | 5 => simp
  | k + 6 => simp

theorem ErrCode.byte_eq_zero_iff (e : ErrCode) : e.byte = 0 ↔ e = .ok := by
  cases e <;> decide

/-- `STATUS.ERR` is 1 exactly when `ERRCODE` is not 0x00 (R25). -/
theorem err_eq_true_iff (s : State) : s.err = true ↔ s.errcode.byte ≠ 0 := by
  rw [State.err, bne_iff_ne, ne_eq, ne_eq, ErrCode.byte_eq_zero_iff]

/-- Settles O50: the layout of `packStatus`, with `ERR` compared to the byte of `ERRCODE`. -/
theorem statusBits : Obligations.StatusBits := by
  rintro s hb _ rfl
  have hstatus : memRead 0x001 s = s.status := memRead_addr_idle hb .status Nat.one_pos
  have herrcode : memRead 0x002 s = s.errcode.byte := memRead_addr_idle hb .errcode Nat.one_pos
  rw [hstatus, herrcode, ← err_eq_true_iff]
  simp only [State.status, getLsbD_packStatus, hb]
  simp

/-! `VSTATE` (R39). -/

/-- After a completed `VERIFY` the state is its verdict (R39). -/
theorem vstate_of_verified {s : State} (h : s.verified = true) :
    s.vstate = if s.matched then .verifiedSuccess else .verifiedFailure := if_pos h

/-- Before a `VERIFY` the state says how many fields are present: all, none, or some (R39). -/
theorem vstate_of_not_verified {s : State} (h : s.verified = false) :
    s.vstate = if s.present = allPresent then .readyToVerify else if s.present = 0 then .empty
      else .partiallyProvisioned := if_neg (by simp [h])

/-- Settles O51: by `VERIFIED`, then by `MATCH` or by the fields present. -/
theorem vstateValues : Obligations.VstateValues := by
  intro s hb
  have hread : memRead 0x005 s = s.vstate.byte := memRead_addr_idle hb .vstate Nat.one_pos
  rw [hread]
  cases hv : s.verified with
  | true => cases hm : s.matched <;> simp [vstate_of_verified hv, hm, VState.byte]
  | false =>
    simp only [vstate_of_not_verified hv, apply_ite VState.byte, Bool.false_eq_true, false_and, true_and, if_false]
    rfl

end Sys2Proof.Machine
end

section
/-! PROOFS. What a host write does (10_state.md, R63, R64) and where no register stands (R71). -/

namespace Sys2Proof.Machine

/-! The address map against the ranges of R71 and R63. -/

theorem reserved_iff (n : Nat) :
    reserved n = true ↔
      n = 0x007 ∨ (0x010 ≤ n ∧ n ≤ 0x03F) ∨ (0x1C0 ≤ n ∧ n ≤ 0x1FF) ∨ (0x6C0 ≤ n ∧ n ≤ 0xFFF) := by
  simp [reserved, or_assoc]

theorem storedByHost_iff (n : Nat) :
    storedByHost n = true ↔
      n = 0x006 ∨ (0x008 ≤ n ∧ n ≤ 0x00D) ∨ (0x040 ≤ n ∧ n ≤ 0x07F) ∨ (0x0C0 ≤ n ∧ n ≤ 0x13F) ∨
      (0x200 ≤ n ∧ n ≤ 0x4FF) := by
  simp [storedByHost, or_assoc]

theorem locate_eq_none_iff (a : Addr) :
    locate a = none ↔ ∀ r ∈ Reg.all, ¬ (r.base ≤ a.toNat ∧ a.toNat < r.base + r.size) := by
  simp only [locate, Option.map_eq_none_iff, List.find?_eq_none, Reg.covers_iff]

/-- Every register lies whole in one of the four gaps that the ranges of R71 leave. -/
theorem row_in_gap_of_reserved (r : Reg) :
    r.base + r.size ≤ 0x007 ∨ (0x008 ≤ r.base ∧ r.base + r.size ≤ 0x010) ∨
    (0x040 ≤ r.base ∧ r.base + r.size ≤ 0x1C0) ∨ (0x200 ≤ r.base ∧ r.base + r.size ≤ 0x6C0) := by
  cases r <;> decide

/-- The reserved addresses of R71 are those at which R70 places no register. -/
theorem reserved_iff_locate_eq_none (a : Addr) : reserved a.toNat = true ↔ locate a = none := by
  rw [reserved_iff, locate_eq_none_iff]
  constructor
  · intro h r _
    have := row_in_gap_of_reserved r
    omega
  · intro h
    simp only [Reg.all, List.cons_append, List.nil_append, List.forall_mem_cons, Reg.base, Reg.size] at h
    omega

/-- A host write stores the byte exactly in the read-write registers other than `CMD` (R63, R70). -/
theorem storedByHost_addr (r : Reg) {i : Nat} (hi : i < r.size) :
    storedByHost (r.base + i) = true ↔ r.writable = true ∧ r ≠ .cmd := by
  rw [storedByHost_iff]
  cases r <;> simp [Reg.base, Reg.size, Reg.writable] at hi ⊢ <;> omega

theorem locate_of_storedByHost {a : Addr} (h : storedByHost a.toNat = true) :
    ∃ (r : Reg) (i : Nat), i < r.size ∧ a = r.addr i ∧ r.writable = true ∧ r ≠ .cmd := by
  cases hl : locate a with
  | none =>
    rw [← reserved_iff_locate_eq_none, reserved_iff] at hl
    rw [storedByHost_iff] at h
    omega
  | some p =>
    obtain ⟨ha, hi⟩ := locate_some (r := p.1) (i := p.2) hl
    rw [ha, storedByHost_addr _ hi] at h
    exact ⟨p.1, p.2, hi, eq_addr_of_locate hl, h⟩

/-! One byte written to a register, and what the registers hold after it. -/

section
variable (s : State) (r : Reg) (i : Nat) (v : Byte)

@[simp] theorem writeReg_busy : (s.writeReg r i v).busy = s.busy := by cases r <;> rfl
@[simp] theorem writeReg_program : (s.writeReg r i v).program = s.program := by cases r <;> rfl
@[simp] theorem writeReg_turns : (s.writeReg r i v).turns = s.turns := by cases r <;> rfl
@[simp] theorem writeReg_reads : (s.writeReg r i v).reads = s.reads := by cases r <;> rfl
@[simp] theorem writeReg_draws : (s.writeReg r i v).draws = s.draws := by cases r <;> rfl

theorem regByte_writeReg_of_ne {q : Reg} (h : q ≠ r) (j : Nat) : (s.writeReg r i v).regByte q j = s.regByte q j := by
  cases r <;> cases q <;> try rfl
  all_goals exact absurd rfl h

/-- A read-write register holds the byte at the offset written and its old bytes at the others (R63). -/
theorem regByte_writeReg_self {r : Reg} (hw : r.writable = true) (hc : r ≠ .cmd) {i j : Nat} (hi : i < r.size)
    (hj : j < r.size) : (s.writeReg r i v).regByte r j = if j = i then v else s.regByte r j := by
  have buffer {n : Nat} (b : Buf n) (hj : j < n) : (b.set i v).get j = if j = i then v else b.get j := by
    simp only [Buf.get_set, hj, and_true, eq_comm]
  have byte (h1 : r.size = 1) : j = i := by omega
  cases r
  case secret | ipad | opad | key | data | msg => exact buffer _ hj
  case seclen | keylenLo | keylenHi | datalenLo | datalenHi | msglenLo | msglenHi => exact (if_pos (byte rfl)).symm
  case cmd => exact absurd rfl hc
  all_goals exact absurd hw (by decide)

end

/-! A host write while `BUSY` = 0, by the register that stands at the address (R63, R64 a). -/

section
variable (s : State) (v : Byte)

theorem idleWrite_cmd : s.idleWrite 0x000 v = s.accept v := rfl

theorem idleWrite_status : s.idleWrite 0x001 v = if v.getLsbD 5 then { s with wrbusy := false } else s := rfl

theorem idleWrite_addr {r : Reg} (hc : r ≠ .cmd) (hs : r ≠ .status) {i : Nat} (hi : i < r.size) :
    s.idleWrite (r.addr i) v = s.writeReg r i v := by
  rw [State.idleWrite, locate_addr r hi]
  cases r
  case cmd => exact absurd rfl hc
  case status => exact absurd rfl hs
  all_goals rfl

theorem idleWrite_none {a : Addr} (h : locate a = none) : s.idleWrite a v = s := by
  simp [State.idleWrite, h]

end

/-- Two bytes of registers stand at one address only if they are the same byte (R70). -/
theorem addr_eq_addr_iff {q r : Reg} {i j : Nat} (hj : j < q.size) (hi : i < r.size) :
    q.addr j = r.addr i ↔ q = r ∧ j = i := by
  constructor
  · intro h
    simpa [locate_addr _ hj, locate_addr _ hi] using congrArg locate h
  · rintro ⟨rfl, rfl⟩
    rfl

/-- After a write to a read-write register its address holds the byte and every other address what it held (R63). -/
theorem byteAt_writeReg (s : State) (v : Byte) {r : Reg} (hw : r.writable = true) (hc : r ≠ .cmd) {i : Nat}
    (hi : i < r.size) (b : Addr) :
    (s.writeReg r i v).byteAt b = if b = r.addr i then v else s.byteAt b := by
  cases hb : locate b with
  | none =>
    have hne : b ≠ r.addr i := by
      rintro rfl
      simp [locate_addr r hi] at hb
    rw [if_neg hne, byteAt_none _ hb, byteAt_none _ hb]
  | some p =>
    obtain ⟨q, j⟩ := p
    obtain ⟨-, hj⟩ := locate_some hb
    rw [eq_addr_of_locate hb, byteAt_addr _ _ hj, byteAt_addr _ _ hj]
    simp only [addr_eq_addr_iff hj hi]
    by_cases hq : q = r
    · subst hq
      simp [regByte_writeReg_self s v hw hc hi hj]
    · simp [hq, regByte_writeReg_of_ne s r i v hq]

/-- While `BUSY` = 0 a write to a read-write register other than `CMD` writes that byte of it (R63). -/
theorem memWrite_addr_idle {s : State} (hb : s.busy = false) {r : Reg} (hw : r.writable = true) (hc : r ≠ .cmd)
    {i : Nat} (hi : i < r.size) (v : Byte) : memWrite (r.addr i) v s = s.writeReg r i v := by
  have hs : r ≠ .status := by
    rintro rfl
    exact absurd hw (by decide)
  rw [memWrite_idle hb, idleWrite_addr s v hc hs hi]

/-- A write to a read-only or reserved address changes nothing (R64 a). -/
theorem idleWrite_not_stored (s : State) {a : Addr} (v : Byte) (h0 : a ≠ 0x000) (h1 : a ≠ 0x001)
    (h : storedByHost a.toNat = false) : s.idleWrite a v = s := by
  cases hl : locate a with
  | none => exact idleWrite_none s v hl
  | some p =>
    obtain ⟨r, i⟩ := p
    obtain ⟨ha, hi⟩ := locate_some hl
    have hat := eq_addr_of_locate hl
    have hc : r ≠ .cmd := by
      rintro rfl
      obtain rfl : i = 0 := Nat.lt_one_iff.mp hi
      exact h0 hat
    have hs : r ≠ .status := by
      rintro rfl
      obtain rfl : i = 0 := Nat.lt_one_iff.mp hi
      exact h1 hat
    have hw : r.writable = false := by
      have := (storedByHost_addr r hi).not
      simpa [← ha, h, hc] using this
    rw [hat, idleWrite_addr s v hc hs hi, writeReg_readOnly s hw]

/-- Settles O54: a busy block takes no write; an idle one acts by the register at the address. -/
theorem hostWriteEffect : Obligations.HostWriteEffect := by
  intro s a v
  refine ⟨fun hb => memWrite_busy hb a v, ?_, ?_, ?_, ?_⟩
  · rintro hb rfl
    rw [memWrite_idle hb, idleWrite_cmd, State.accept]
  · rintro hb rfl
    rw [memWrite_idle hb, idleWrite_status]
  · intro hb h
    obtain ⟨r, i, hi, rfl, hw, hc⟩ := locate_of_storedByHost h
    rw [memWrite_addr_idle hb hw hc hi]
    refine ⟨fun b => ?_, writeReg_program s r i v, writeReg_turns s r i v, writeReg_reads s r i v,
      writeReg_draws s r i v⟩
    rw [memRead_idle ((writeReg_busy s r i v).trans hb), memRead_idle hb, byteAt_writeReg s v hw hc hi]
  · intro hb h0 h1 h
    rw [memWrite_idle hb, idleWrite_not_stored s v h0 h1 h]

/-! Reserved addresses and reserved bits (R71). -/

theorem extractLsb'_six_two_eq_zero {x : Byte} (h : ∀ k, 6 ≤ k → x.getLsbD k = false) : x.extractLsb' 6 2 = 0 := by
  apply BitVec.eq_of_getLsbD_eq
  intro k hk
  simp [h (6 + k) (Nat.le_add_right 6 k)]

theorem getLsbD_zeroExtend_six (x : BitVec 6) {k : Nat} (hk : 6 ≤ k) : (x.zeroExtend 8).getLsbD k = false := by
  simp [BitVec.getLsbD_setWidth, BitVec.getLsbD_of_ge x k hk]

theorem getLsbD_status_of_le (s : State) {k : Nat} (hk : 6 ≤ k) : s.status.getLsbD k = false := by
  rw [State.status, getLsbD_packStatus, List.getD_eq_default _ _ hk]

/-- Settles O49: no register stands at a reserved address, and the three registers have 6 bits of their own. -/
theorem reservedReadsZero : Obligations.ReservedReadsZero := by
  intro s hb
  constructor
  · intro a v h
    have hl := (reserved_iff_locate_eq_none a).mp h
    exact ⟨by rw [memRead_idle hb, byteAt_none s hl], by rw [memWrite_idle hb, idleWrite_none s v hl]⟩
  · have hstatus : memRead 0x001#12 s = s.status := memRead_addr_idle hb .status Nat.one_pos
    have hmissing : memRead 0x003#12 s = s.missing.zeroExtend 8 := memRead_addr_idle hb .missing Nat.one_pos
    have hpresent : memRead 0x004#12 s = s.present.zeroExtend 8 := memRead_addr_idle hb .present Nat.one_pos
    simp only [List.forall_mem_cons, hstatus, hmissing, hpresent]
    exact ⟨extractLsb'_six_two_eq_zero fun _ => getLsbD_status_of_le s,
      extractLsb'_six_two_eq_zero fun _ => getLsbD_zeroExtend_six s.missing,
      extractLsb'_six_two_eq_zero fun _ => getLsbD_zeroExtend_six s.present, by simp⟩

end Sys2Proof.Machine
end

section
/-! PROOFS. The decoder against the opcode map (30_encoding.md, R94 to R97). -/

namespace Sys2Proof

/-- No two rows of the map share a code: every row's own code finds that row (R94). -/
theorem decode_code_of_mem : ∀ r ∈ opcodeMap, decode r.code = .ok r.instr := by decide

/-- The decoder refuses a byte exactly when no row of the map has it for its code (R94, R97). -/
theorem decode_eq_unknown_iff (b : Byte) :
    decode b = .error (.unknownCommand b) ↔ b ∉ opcodeMap.map OpcodeRow.code := by
  rw [decode]
  cases h : opcodeMap.find? fun r => r.code == b with
  | none => simpa [List.find?_eq_none] using h
  | some r =>
    have hcode : r.code = b := by simpa using List.find?_some h
    simpa using ⟨r, List.mem_of_find?_eq_some h, hcode⟩

/-- The codes of the map's 17 rows, in the map's order (R94). -/
theorem opcodeMap_codes : opcodeMap.map OpcodeRow.code =
    [0x00, 0x01, 0x10, 0x11, 0x12, 0x13, 0x14, 0x15, 0x16, 0x17, 0x20, 0x21, 0x22, 0x23, 0x24, 0x25, 0x2F] := by decide

/-- Settles O1: the known codes row by row of the map, the other bytes because no row has them. -/
theorem opcodeMapWords : Obligations.OpcodeMapWords := by
  have hrows := decode_code_of_mem
  simp only [opcodeMap, List.cons_append, List.nil_append, List.forall_mem_cons] at hrows
  obtain ⟨nop, clrctx, padkey, derive, xorpads, hash, hmac, cipher, cipheri, ciphero, setkek1, setkek2, seteipad,
    seteopad, setchal, setresp, verify, -⟩ := hrows
  refine ⟨⟨nop, clrctx⟩, ⟨padkey, derive, xorpads, hash, hmac, cipher, cipheri, ciphero⟩,
    ⟨setkek1, setkek2, seteipad, seteopad, setchal, setresp, verify⟩, fun b hb => ?_⟩
  rw [decode_eq_unknown_iff, opcodeMap_codes]
  exact hb

/-- Settles O3: the four ranges are what the 17 codes of the map leave of the 256 bytes. -/
theorem unknownCodesExactly : Obligations.UnknownCodesExactly := by
  intro b
  have hb : b.toNat < 256 := b.isLt
  rw [decode_eq_unknown_iff, opcodeMap_codes]
  simp only [List.mem_cons, List.not_mem_nil, or_false, BitVec.toNat_eq, BitVec.reduceToNat]
  omega

end Sys2Proof
end

section
/-! PROOFS. The control commands `NOP` and `CLRCTX` (40_control.md, R110, R111). -/

namespace Sys2Proof.Machine

/-- `NOP` ends without error and does nothing before (R110). -/
theorem exec_nop (s : State) : exec .nop s = .next (s.complete .ok 0) := rfl

/-- The effect of `CLRCTX` before its completion record: the context store of R50 as it is at reset (R111). -/
def State.clearContext (s : State) : State :=
  { s.clearFlags with
    kekh1 := .rep _ 0, kekh2 := .rep _ 0, eipad := .rep _ 0, eopad := .rep _ 0
    chal := .rep _ 0, challen := .zero, expresp := .rep _ 0 }

theorem exec_clrctx (s : State) : exec .clrctx s = .next (s.clearContext.complete .ok 0) := rfl

@[simp] theorem clearContext_present (s : State) : s.clearContext.present = 0 := rfl
@[simp] theorem clearContext_verified (s : State) : s.clearContext.verified = false := rfl

/-- With no field present and no completed `VERIFY` the context is empty (R39). -/
theorem vstate_of_present_eq_zero {s : State} (hv : s.verified = false) (hp : s.present = 0) : s.vstate = .empty := by
  rw [vstate_of_not_verified hv, hp]
  rfl

@[simp] theorem clearContext_vstate (s : State) : s.clearContext.vstate = .empty :=
  vstate_of_present_eq_zero (clearContext_verified s) (clearContext_present s)

/-- Settles O11: the only effect of `NOP` is the completion record. -/
theorem nopWritesRecordOnly : Obligations.NopWritesRecordOnly := by
  obtain ⟨⟨hdecode, -⟩, -⟩ := opcodeMapWords
  exact ⟨hdecode, exec_nop⟩

/-- Settles O12: the completion record does not touch the context store, so `VSTATE` stays at `Empty`. -/
theorem clrctxEmptiesContext : Obligations.ClrctxEmptiesContext := by
  obtain ⟨⟨-, hdecode⟩, -⟩ := opcodeMapWords
  refine ⟨hdecode, fun s => ⟨_, exec_clrctx s, ?_, rfl⟩⟩
  rw [complete_vstate, clearContext_vstate]

end Sys2Proof.Machine
end

section
/-! PROOFS. The pad generator (41_padgen.md): its two functions byte by byte, `PADKEY`, `DERIVE` and `XORPADS` (R121 to R126). -/

namespace Sys2Proof.Machine

/-! The padded key and the pads (R121, R123). -/

/-- Each byte of the padded key is the byte of the string, and 0x00 behind its end (R121). -/
theorem get_padKey (s : List Byte) {i : Nat} (hi : i < 64) : (padKey s).get i = s.getD i 0 := by
  rw [padKey, Buf.get_put _ _ (Nat.zero_le _), Buf.get_rep]
  by_cases h : i < s.length
  · rw [if_pos (by simp; omega)]
    simp [List.getD_eq_getElem?_getD, List.getElem?_take_of_lt hi]
  · rw [if_neg (by simp; omega), List.getD_eq_default _ _ (Nat.le_of_not_lt h)]

/-- What the padding commands read: `SECRET` below `min(SECLEN, 64)`, and nothing from there on (R122). -/
theorem getD_secretOperand (s : State) (i : Nat) :
    s.secretOperand.getD i 0 = if i < min s.seclen.toNat 64 then s.secret.get i else 0 := by
  split
  next h => rw [State.secretOperand, Buf.slice_getD _ (by rwa [Nat.zero_add]), Nat.zero_add]
  next h => exact List.getD_eq_default _ _ (by rw [secretOperand_length]; omega)

/-- The padded secret, byte by byte (R122). -/
theorem get_padKey_secretOperand (s : State) {i : Nat} (hi : i < 64) :
    (padKey s.secretOperand).get i = if i < min s.seclen.toNat 64 then s.secret.get i else 0 := by
  rw [get_padKey _ hi, getD_secretOperand]

theorem get_derivePads_fst (s : List Byte) {i : Nat} (hi : i < 64) :
    (derivePads s).1.get i = (padKey s).get i ^^^ 0x36 := by
  rw [derivePads, Buf.get_xor, Buf.get_rep_lt _ hi, ibyte]

theorem get_derivePads_snd (s : List Byte) {i : Nat} (hi : i < 64) :
    (derivePads s).2.get i = (padKey s).get i ^^^ 0x5C := by
  rw [derivePads, Buf.get_xor, Buf.get_rep_lt _ hi, obyte]

/-! What cancels between two pads: the padded key (R125), and the keystream of one cipher key (R189). -/

theorem xor_xor_xor_cancel_left {w : Nat} (p a b : BitVec w) : (p ^^^ a) ^^^ (p ^^^ b) = a ^^^ b := by
  rw [BitVec.xor_comm p a, BitVec.xor_assoc, ← BitVec.xor_assoc p p b, BitVec.xor_self, BitVec.zero_xor]

/-- The two pads of one secret differ by `0x36 ^ 0x5C` in every byte (R125). -/
theorem derivePads_xor (s : List Byte) : (derivePads s).1.xor (derivePads s).2 = .rep _ 0x6A := by
  apply Buf.ext_get
  intro i hi
  rw [Buf.get_xor, get_derivePads_fst s hi, get_derivePads_snd s hi, xor_xor_xor_cancel_left, Buf.get_rep_lt _ hi]
  rfl

/-- Each byte of an enciphered pad is the keystream byte of its place XOR the pad byte (R183, R186, R187). -/
theorem get_scPad (k : CipherKey) (p : Buf 64) {i : Nat} (hi : i < 64) :
    (scPad k p).get i = genByte (genRun (keySchedule k) (i + 1)) ^^^ p.get i := by
  rw [← Buf.bytes_getD, scPad_bytes, sc_getD k _ (by rwa [Buf.bytes_length]), Buf.bytes_getD, BitVec.xor_comm]

/-- Two pads enciphered under one key differ as the plain pads do (R189). -/
theorem scPad_xor_scPad (k : CipherKey) (p q : Buf 64) : (scPad k p).xor (scPad k q) = p.xor q := by
  apply Buf.ext_get
  intro i hi
  rw [Buf.get_xor, get_scPad k p hi, get_scPad k q hi, xor_xor_xor_cancel_left, Buf.get_xor]

/-! The commands (R122, R124, R126). Each ends without error after its effect. -/

theorem exec_padkey (s : State) :
    exec .padkey s = .next ({ s with pkey := padKey s.secretOperand }.complete .ok 0) := rfl

theorem exec_derive (s : State) :
    exec .derive s = .next ({ s with
      pkey := padKey s.secretOperand
      ipad := (derivePads s.secretOperand).1
      opad := (derivePads s.secretOperand).2 }.complete .ok 0) := rfl

theorem exec_xorpads (s : State) :
    exec .xorpads s = .next ({ s with kpdiag := s.ipad.xor s.opad }.complete .ok 0) := rfl

/-- Settles O13: `PKEY` is the padded key of the secret's first `min(SECLEN, 64)` bytes. -/
theorem padkeyPadsSecret : Obligations.PadkeyPadsSecret := by
  obtain ⟨-, ⟨hdecode, -⟩, -⟩ := opcodeMapWords
  exact ⟨hdecode, fun s => ⟨_, exec_padkey s, fun _ => get_padKey_secretOperand s⟩⟩

/-- Settles O14: the pads are those of the padded key that `PKEY` receives. -/
theorem deriveComputesPads : Obligations.DeriveComputesPads := by
  obtain ⟨-, ⟨-, hdecode, -⟩, -⟩ := opcodeMapWords
  exact ⟨hdecode, fun s => ⟨_, _, _, exec_derive s, fun _ hi =>
    ⟨get_padKey_secretOperand s hi, get_derivePads_fst _ hi, get_derivePads_snd _ hi⟩⟩⟩

/-- Settles O15: enciphering both pads under one key leaves their XOR as it was, which for a pad pair is 0x6A throughout. -/
theorem xorpadsWritesDiagnostic : Obligations.XorpadsWritesDiagnostic := by
  obtain ⟨-, ⟨-, -, hdecode, -⟩, -⟩ := opcodeMapWords
  refine ⟨hdecode, fun s => ⟨_, exec_xorpads s, fun i _ => Buf.get_xor _ _ i, ?_⟩⟩
  rintro secret (⟨hi, ho⟩ | ⟨c, hi, ho⟩)
  · rw [hi, ho, derivePads_xor]
  · rw [hi, ho, scPad_xor_scPad, derivePads_xor]

end Sys2Proof.Machine
end

section
/-! PROOFS. SHA-256 (42_sha256.md): the padding (R143), the functions, block words and schedule (R141, R142, R145), the iteration
and the command `HASH` (R146, R147, R151, R155), and the constants as roots of primes (R144, R150). -/

namespace Sys2Proof.Machine

/-! The padding (R143). -/

/-- With `k = (55 - L) mod 64` zero bytes the padded message is whole blocks. -/
theorem padZeros_fills (L : Nat) : (L + 1 + padZeros L + 8) % 64 = 0 := by
  rw [padZeros]; omega

/-- No smaller number of zero bytes does. -/
theorem padZeros_le {L j : Nat} (h : (L + 1 + j + 8) % 64 = 0) : padZeros L ≤ j := by
  rw [padZeros]; omega

/-- A number without its last `sh + 8` bits, and the byte above its last `sh` bits, are the number without its last `sh` bits. -/
theorem shiftRight_snoc_byte {n m : Nat} (sh : Nat) (h : m = n >>> (sh + 8)) :
    m * 256 + (BitVec.ofNat 8 (n >>> sh)).toNat = n >>> sh := by
  rw [h, Nat.shiftRight_add, BitVec.toNat_ofNat, Nat.shiftRight_eq_div_pow _ 8]
  omega

/-- The 8 length bytes, read big-endian, are the number they stand for: each byte read shifts it 8 bits less. -/
theorem foldl_be64 {n : Nat} (h : n < 2 ^ 64) : (be64 n).foldl (fun m b => m * 256 + b.toNat) 0 = n := by
  have h64 : 0 = n >>> 64 := by rw [Nat.shiftRight_eq_div_pow, Nat.div_eq_of_lt h]
  exact shiftRight_snoc_byte 0 <| shiftRight_snoc_byte 8 <| shiftRight_snoc_byte 16 <| shiftRight_snoc_byte 24 <|
    shiftRight_snoc_byte 32 <| shiftRight_snoc_byte 40 <| shiftRight_snoc_byte 48 <| shiftRight_snoc_byte 56 h64

/-- Settles O18: `padZeros` is the least filling, and `be64` the big-endian length. -/
theorem paddedMessageShape : Obligations.PaddedMessageShape := fun s =>
  ⟨padZeros s.length, be64 (8 * s.length), rfl, padZeros_fills _, fun _ => padZeros_le, ⟨rfl, foldl_be64⟩, shaPad_length s⟩

/-! The words of a block and their schedule (R141, R142, R145). -/

/-- Appended bit vectors are one number: the first stands above the bits of the second. -/
theorem toNat_append_eq_add {v w : Nat} (x : BitVec v) (y : BitVec w) : (x ++ y).toNat = x.toNat * 2 ^ w + y.toNat := by
  rw [BitVec.toNat_append, ← Nat.shiftLeft_add_eq_or_of_lt y.isLt, Nat.shiftLeft_eq]

/-- Word `t` of a string of bytes is its bytes from `4t` on, read big-endian (R141). -/
theorem bytesToWords_getD (B : List Byte) {t : Nat} (h : 4 * t + 3 < B.length) :
    ((bytesToWords B).getD t 0).toNat =
      (B.getD (4 * t) 0).toNat * 2 ^ 24 + (B.getD (4 * t + 1) 0).toNat * 2 ^ 16 + (B.getD (4 * t + 2) 0).toNat * 2 ^ 8
        + (B.getD (4 * t + 3) 0).toNat := by
  induction B using bytesToWords.induct generalizing t with
  | case1 b0 b1 b2 b3 rest ih =>
    cases t with
    | zero =>
      change (b0 ++ b1 ++ b2 ++ b3).toNat = b0.toNat * 2 ^ 24 + b1.toNat * 2 ^ 16 + b2.toNat * 2 ^ 8 + b3.toNat
      simp only [toNat_append_eq_add]
      ring
    | succ t =>
      simp only [List.length_cons] at h
      exact ih (by omega)
  | case2 b hb =>
    match b, hb, h with
    | b0 :: b1 :: b2 :: b3 :: rest, hb, _ => exact (hb b0 b1 b2 b3 rest rfl).elim

/-- The words given to the schedule stand unchanged behind the `n` new ones. -/
theorem extendSchedule_getD_add (n i : Nat) (w : List Word) : (extendSchedule n w).getD (n + i) 0 = w.getD i 0 := by
  induction n generalizing w i with
  | zero => rw [extendSchedule, Nat.zero_add]
  | succ n ih => rw [extendSchedule, Nat.add_right_comm, Nat.add_assoc, ih, List.getD_cons_succ]

/-- So the newest word given stands at place `n`. -/
theorem extendSchedule_getD_self (n : Nat) (w : List Word) : (extendSchedule n w).getD n 0 = w.getD 0 0 :=
  extendSchedule_getD_add n 0 w

/-- Each new word continues the older ones behind it by the recurrence of R145, newest word first. -/
theorem extendSchedule_getD {n j : Nat} (h : j < n) (w : List Word) :
    (extendSchedule n w).getD j 0 =
      ssig1 ((extendSchedule n w).getD (j + 2) 0) + (extendSchedule n w).getD (j + 7) 0
        + ssig0 ((extendSchedule n w).getD (j + 15) 0) + (extendSchedule n w).getD (j + 16) 0 := by
  induction n generalizing w with
  | zero => omega
  | succ n ih =>
    rw [extendSchedule]
    rcases Nat.lt_succ_iff_lt_or_eq.mp h with h | rfl
    · exact ih h _
    · simp only [extendSchedule_getD_add, extendSchedule_getD_self]
      rfl

/-- The schedule is the extended words, oldest first. -/
theorem schedule_getD {m : List Word} (h : m.length = 16) {t : Nat} (ht : t < 64) :
    (schedule m).getD t 0 = (extendSchedule 48 m.reverse).getD (63 - t) 0 := by
  have hlen : (extendSchedule 48 m.reverse).length = 64 := by simp [h]
  rw [schedule, List.getD_reverse t (by omega), hlen]

/-- The first sixteen words of the schedule are the block's (R145). -/
theorem schedule_getD_block {m : List Word} (h : m.length = 16) {t : Nat} (ht : t < 16) :
    (schedule m).getD t 0 = m.getD t 0 := by
  rw [schedule_getD h (by omega), show 63 - t = 48 + (15 - t) by omega, extendSchedule_getD_add,
    List.getD_reverse _ (by omega), h, show 16 - 1 - (15 - t) = t by omega]

/-- From the seventeenth word on the schedule is the recurrence (R145). -/
theorem schedule_getD_recurrence {m : List Word} (h : m.length = 16) {t : Nat} (ht : t < 64) (h16 : 16 ≤ t) :
    (schedule m).getD t 0 = ssig1 ((schedule m).getD (t - 2) 0) + (schedule m).getD (t - 7) 0
      + ssig0 ((schedule m).getD (t - 15) 0) + (schedule m).getD (t - 16) 0 := by
  have hback : ∀ d ≤ 16, 63 - (t - d) = 63 - t + d := by omega
  simp only [schedule_getD h, show t - 2 < 64 by omega, show t - 7 < 64 by omega, show t - 15 < 64 by omega,
    show t - 16 < 64 by omega, ht]
  rw [extendSchedule_getD (by omega), hback, hback, hback, hback] <;> omega

/-- Settles O19: word by word of the block, then by the recurrence that each new word of the schedule follows. -/
theorem messageScheduleRecurrence : Obligations.MessageScheduleRecurrence := by
  refine ⟨fun x y z => ⟨rfl, rfl⟩, fun x => ?_, fun B hB => ?_⟩
  · simp [bsig0, bsig1, ssig0, ssig1, rotr32_eq_rotateRight, shr32]
  · have hm : (bytesToWords B).length = 16 := by rw [bytesToWords_length, hB]
    exact ⟨_, _, rfl, rfl, hm, schedule_length hB, fun t ht => bytesToWords_getD B (by omega),
      fun t ht => schedule_getD_block hm ht, fun t ht => schedule_getD_recurrence hm ht⟩

/-! The iteration and the command `HASH` (R146, R147, R151, R155). -/

/-- Settles O21: the chaining values are `roundRun` within a block and `shaRun` from block to block. -/
theorem hashWritesDigest : Obligations.HashWritesDigest := by
  obtain ⟨-, ⟨-, -, -, hdecode, -⟩, -⟩ := opcodeMapWords
  refine ⟨hdecode, fun H B hB => ?_, fun m => ?_, fun s => ⟨fun h => ?_, fun h => ?_⟩⟩
  · exact ⟨roundRun H B, rfl, fun t ht => roundRun_succ H hB ht, compress_eq_roundRun H hB⟩
  · refine ⟨shaRun m, _, rfl, fun i hi => shaRun_succ m hi, rfl, fun i hi b hb => ?_⟩
    rw [sha256_eq_shaRun, Chain.digest_get _ hi hb, be32_getD _ hb]
  · obtain ⟨hlong, -⟩ | ⟨-, hexec⟩ := execHash_cases s
    · exact absurd hlong (Nat.not_lt.mpr h)
    · rw [Buf.slice_eq_map _ h] at hexec
      exact hexec
  · obtain ⟨-, hexec⟩ | ⟨hshort, -⟩ := execHash_cases s
    · exact hexec
    · exact absurd h (Nat.not_lt.mpr hshort)

/-! The constants (R144, R150). -/

/-- The first 64 primes. -/
def firstPrimes : List Nat :=
  [2, 3, 5, 7, 11, 13, 17, 19, 23, 29, 31, 37, 41, 43, 47, 53, 59, 61, 67, 71, 73, 79, 83, 89, 97, 101, 103, 107, 109, 113, 127,
    131, 137, 139, 149, 151, 157, 163, 167, 173, 179, 181, 191, 193, 197, 199, 211, 223, 227, 229, 233, 239, 241, 251, 257, 263,
    269, 271, 277, 281, 283, 293, 307, 311]

/-- A prime is a number from 2 on without a divisor between 1 and itself, in the words of the statement of R144. -/
theorem prime_iff_forall_lt (n : Nat) : n.Prime ↔ 2 ≤ n ∧ ∀ d < n, 2 ≤ d → n % d ≠ 0 := by
  rw [Nat.prime_def_lt']
  exact and_congr_right fun _ =>
    ⟨fun h d hlt h2 hd => h d h2 hlt (Nat.dvd_of_mod_eq_zero hd), fun h d h2 hlt hd => h d hlt h2 (Nat.mod_eq_zero_of_dvd hd)⟩

/-- Below `18 ^ 2` the divisors below 18 decide. -/
theorem prime_iff_forall_lt_18 {n : Nat} (h : n < 18 ^ 2) :
    n.Prime ↔ 2 ≤ n ∧ ∀ d < 18, 2 ≤ d → d < n → n % d ≠ 0 := by
  constructor
  · rw [prime_iff_forall_lt]
    exact And.imp_right fun hd d _ h2 hlt => hd d hlt h2
  · rintro ⟨hn, hd⟩
    refine Nat.prime_def_le_sqrt.mpr ⟨hn, fun d h2 hsqrt hdvd => ?_⟩
    rw [Nat.le_sqrt] at hsqrt
    exact hd d (by nlinarith) h2 (by nlinarith) (Nat.mod_eq_zero_of_dvd hdvd)

/-- The primes that the statement filters out of the numbers below 312. -/
theorem filter_range_eq_firstPrimes :
    ((List.range 312).filter fun n => 2 ≤ n ∧ ∀ d < n, 2 ≤ d → n % d ≠ 0) = firstPrimes := by
  have hsmall : ((List.range 312).filter fun n => 2 ≤ n ∧ ∀ d < 18, 2 ≤ d → d < n → n % d ≠ 0) = firstPrimes := by
    decide +kernel
  rw [← hsmall]
  refine List.filter_congr fun n hn => decide_eq_decide.mpr ?_
  have hlt : n < 312 := List.mem_range.mp hn
  rw [← prime_iff_forall_lt, prime_iff_forall_lt_18 (by omega)]

/-- `r` is the integer part of the `k`-th root of `x`. -/
abbrev IsRootFloor (k x r : Nat) : Prop := r ^ k ≤ x ∧ x < (r + 1) ^ k

/-- `K[t]` is the 32 bits behind the binary point of a prime's cube root (R144). -/
theorem shaK_cubeRoot :
    ∀ t < 64, ∃ c < 8, IsRootFloor 3 (firstPrimes.getD t 0 * 2 ^ 96) (c * 2 ^ 32 + (shaK.getD t 0).toNat) := by
  decide +kernel

/-- `IV[i]` is the 32 bits behind the binary point of a prime's square root (R150). -/
theorem shaIV_squareRoot :
    ∀ i < 8, ∃ c < 8, IsRootFloor 2 (firstPrimes.getD i 0 * 2 ^ 64)
      (c * 2 ^ 32 + ([shaIV.a, shaIV.b, shaIV.c, shaIV.d, shaIV.e, shaIV.f, shaIV.g, shaIV.h].getD i 0).toNat) := by
  decide +kernel

/-- Settles O17: the numbers that the statement filters are the first 64 primes, whose roots the constants are. -/
theorem hashConstantsAreRoots : Obligations.HashConstantsAreRoots := by
  unfold Obligations.HashConstantsAreRoots
  rw [filter_range_eq_firstPrimes]
  exact ⟨⟨shaK_length, shaK_cubeRoot⟩, shaIV_squareRoot⟩

end Sys2Proof.Machine
end

section
/-! PROOFS. The HMAC processor (43_hmac.md): the command `HMAC` (R172). -/

namespace Sys2Proof.Machine

/-- Settles O22: a message that fits is the first `MSGLEN` bytes of `MSG`, and the digests are the two paths of R171 over it. -/
theorem hmacHashesTwice : Obligations.HmacHashesTwice := by
  obtain ⟨-, ⟨-, -, -, -, hdecode, -⟩, -⟩ := opcodeMapWords
  refine ⟨hdecode, fun s => ⟨fun h => ?_, fun h => ?_⟩⟩
  · obtain ⟨hlong, -⟩ | ⟨-, hexec⟩ := execHmac_cases s
    · exact absurd hlong (Nat.not_lt.mpr h)
    · rw [Buf.slice_eq_map _ h] at hexec
      exact ⟨_, _, hexec, rfl, rfl⟩
  · obtain ⟨-, hexec⟩ | ⟨hshort, -⟩ := execHmac_cases s
    · exact hexec
    · exact absurd h (Nat.not_lt.mpr hshort)

end Sys2Proof.Machine
end

section
/-! PROOFS. The stream cipher (44_cipher.md): the key schedule (R181), the three commands (R185 to R187), and that enciphering
twice restores the string (R188). -/

namespace Sys2Proof

/-! A string written to the front of a buffer. -/

/-- `B[0..|t|)` reads back the string that was written there (R8, R10). -/
theorem Buf.slice_put_zero {n : Nat} (b : Buf n) {t : List Byte} (h : t.length ≤ n) : (b.put 0 t).slice 0 t.length = t := by
  simp [Buf.slice, Buf.put_toList, List.take_take, h]

/-- A string written to the front replaces a string of the same length written there before (R10). -/
theorem Buf.put_zero_put_zero {n : Nat} (b : Buf n) {s t : List Byte} (h : s.length = t.length) :
    (b.put 0 s).put 0 t = b.put 0 t := by
  apply Buf.ext_get
  intro i _
  simp only [Buf.get_put _ _ (Nat.zero_le n), h]
  split <;> rfl

end Sys2Proof

namespace Sys2Proof.Machine

/-! The key schedule (R181), its bytes read as numbers. -/

theorem permNat_identity {x : Nat} (h : x < 256) : permNat permIdentity x = x := by
  rw [permNat, permAt_identity, BitVec.toNat_ofNat, Nat.mod_eq_of_lt h]

theorem keyAt_eq_getD (k : CipherKey) (i : Nat) : k.at i = k.bytes.getD (i % k.bytes.length) 0 :=
  (List.getD_eq_getElem _ _ (Nat.mod_lt _ k.pos)).symm

/-- The index `j` of one iteration, as a number. -/
theorem keyStep_fst_toNat (k : CipherKey) (js : Byte × Perm) (i : Nat) :
    (keyStep k js i).1.toNat =
      (js.1.toNat + permNat js.2 i + (k.bytes.getD (i % k.bytes.length) 0).toNat) % 256 := by
  rw [keyStep, BitVec.toNat_add, BitVec.toNat_add, Nat.mod_add_mod, keyAt_eq_getD, permNat]

/-- One iteration swaps the entries at `i` and at the new `j`. -/
theorem keyStep_swapped (k : CipherKey) (js : Byte × Perm) {i : Nat} (h : i < 256) :
    Swapped (permNat js.2) (permNat (keyStep k js i).2) i (keyStep k js i).1.toNat := by
  have hswap := permNat_permSwap js.2 (BitVec.ofNat 8 i) (keyStep k js i).1
  rwa [BitVec.toNat_ofNat, Nat.mod_eq_of_lt h] at hswap

/-- No two entries are equal, before and after every iteration. -/
theorem keyRun_permNat_injective (k : CipherKey) (n : Nat) {x y : Nat} (hx : x < 256) (hy : y < 256)
    (h : permNat (keyRun k n).2 x = permNat (keyRun k n).2 y) : x = y := by
  have hindex := keyRun_injective k n _ _ (BitVec.eq_of_toNat_eq h)
  rw [← BitVec.toNat_inj, BitVec.toNat_ofNat, BitVec.toNat_ofNat] at hindex
  rwa [Nat.mod_eq_of_lt hx, Nat.mod_eq_of_lt hy] at hindex

/-- Settles O26: `S` and `j` are the model's own run of the key schedule, iteration by iteration. -/
theorem keyScheduleIsPermutation : Obligations.KeyScheduleIsPermutation := by
  intro k
  refine ⟨fun n => permNat (keyRun k n).2, fun n => (keyRun k n).1.toNat, fun x hx => permNat_identity hx, rfl,
    fun i hi => ?_, fun i _ x hx => ⟨permNat_lt _ x, fun y hy => keyRun_permNat_injective k i hx hy⟩, fun x => ?_⟩
  · simp only [keyRun_succ]
    exact ⟨keyStep_fst_toNat k _ i, keyStep_swapped k _ hi⟩
  · rw [keySchedule_eq_keyRun, ← permNat_toNat]

/-! Enciphering twice (R188). -/

/-- Generation from one start XORs one keystream, whatever the data is, so a second pass takes it off again. -/
theorem generate_generate (i j : Byte) (S : Perm) (d : List Byte) : generate i j S (generate i j S d) = d := by
  induction d generalizing i j S with
  | nil => rfl
  | cons b ds ih => simp only [generate, ih, BitVec.xor_assoc, BitVec.xor_self, BitVec.xor_zero]

theorem sc_sc (k : CipherKey) (d : List Byte) : sc k (sc k d) = d := generate_generate ..

theorem scPad_scPad (k : CipherKey) (p : Buf 64) : scPad k (scPad k p) = p :=
  Buf.bytes_inj (by rw [scPad_bytes, scPad_bytes, sc_sc])

/-- The first `n` bytes of a buffer enciphered in place, the others kept (R185). -/
def scPrefix (k : CipherKey) (b : Buf 256) (n : Nat) : Buf 256 := b.put 0 (sc k (b.slice 0 n))

/-- What enciphering in place leaves at offset `i` (R185). -/
theorem get_scPrefix (k : CipherKey) (b : Buf 256) {n i : Nat} (hn : n ≤ 256) (hi : i < 256) :
    (scPrefix k b n).get i = if i < n then (sc k ((List.range n).map b.get)).getD i 0 else b.get i := by
  rw [scPrefix, Buf.get_put _ _ (Nat.zero_le _), Buf.slice_eq_map b hn]
  simp [hi]

theorem scPrefix_scPrefix (k : CipherKey) (b : Buf 256) {n : Nat} (hn : n ≤ 256) :
    scPrefix k (scPrefix k b n) n = b := by
  have hlen : (sc k (b.slice 0 n)).length = n := by simp [hn]
  have hread := Buf.slice_put_zero b (hlen.trans_le hn)
  rw [hlen] at hread
  rw [scPrefix, scPrefix, hread, sc_sc, Buf.put_zero_put_zero b (sc_length _ _), Buf.put_slice_self]

/-! The three commands under a legal key (R185 to R187). -/

section
variable {s : State} {k : CipherKey} (hk : s.keyOperand = .ok k)
include hk

theorem exec_cipher_of_keyOperand (hd : s.datalen.val ≤ 256) :
    exec .cipher s = .next ({ s with data := scPrefix k s.data s.datalen.val }.complete .ok 0) := by
  simp only [exec, execCipher, hk, dataOperand_ok hd]
  rfl

theorem exec_cipheri_of_keyOperand : exec .cipheri s = .next ({ s with ipad := scPad k s.ipad }.complete .ok 0) := by
  simp only [exec, execCipheri, hk, finish]

theorem exec_ciphero_of_keyOperand : exec .ciphero s = .next ({ s with opad := scPad k s.opad }.complete .ok 0) := by
  simp only [exec, execCiphero, hk, finish]

end

/-- Settles O27: the three outcomes of `CIPHER` are the three clauses, and their lengths exclude each other. -/
theorem cipherEnciphersData : Obligations.CipherEnciphersData := by
  obtain ⟨-, ⟨-, -, -, -, -, hdecode, -⟩, -⟩ := opcodeMapWords
  refine ⟨hdecode, fun s => ?_⟩
  obtain ⟨hzero, hexec⟩ | ⟨h0, (hlong : 256 < s.keylen.val ∨ 256 < s.datalen.val), hexec⟩ |
    ⟨h0, (h : s.keylen.val ≤ 256), (hd : s.datalen.val ≤ 256), hexec⟩ := execCipher_cases s
  · exact ⟨by omega, fun _ => hexec, by omega⟩
  · exact ⟨by omega, by omega, fun _ _ => hexec⟩
  · exact ⟨fun _ _ _ => ⟨_, _, Buf.slice_eq_map s.key h, hexec, fun i hi => get_scPrefix _ _ hd hi⟩, by omega, by omega⟩

/-- Settles O28: the three outcomes of `CIPHERI` are the three clauses, and their lengths exclude each other. -/
theorem cipheriEnciphersInnerPad : Obligations.CipheriEnciphersInnerPad := by
  obtain ⟨-, ⟨-, -, -, -, -, -, hdecode, -⟩, -⟩ := opcodeMapWords
  refine ⟨hdecode, fun s => ?_⟩
  obtain ⟨hzero, hexec⟩ | ⟨(hlong : 256 < s.keylen.val), hexec⟩ | ⟨h0, (h : s.keylen.val ≤ 256), hexec⟩ :=
    execCipheri_cases s
  · exact ⟨by omega, fun _ => hexec, by omega⟩
  · exact ⟨by omega, by omega, fun _ => hexec⟩
  · exact ⟨fun _ _ => ⟨_, _, Buf.slice_eq_map s.key h, hexec, scPad_bytes _ _⟩, by omega, by omega⟩

/-- Settles O29: the three outcomes of `CIPHERO` are the three clauses, and their lengths exclude each other. -/
theorem cipheroEnciphersOuterPad : Obligations.CipheroEnciphersOuterPad := by
  obtain ⟨-, ⟨-, -, -, -, -, -, -, hdecode⟩, -⟩ := opcodeMapWords
  refine ⟨hdecode, fun s => ?_⟩
  obtain ⟨hzero, hexec⟩ | ⟨(hlong : 256 < s.keylen.val), hexec⟩ | ⟨h0, (h : s.keylen.val ≤ 256), hexec⟩ :=
    execCiphero_cases s
  · exact ⟨by omega, fun _ => hexec, by omega⟩
  · exact ⟨by omega, by omega, fun _ => hexec⟩
  · exact ⟨fun _ _ => ⟨_, _, Buf.slice_eq_map s.key h, hexec, scPad_bytes _ _⟩, by omega, by omega⟩

/-- Two runs of one command, the second on the state that the first left. -/
theorem runCommands_twice {i : Instr} {s t u : State} (hst : exec i s = .next t) (htu : exec i t = .next u) :
    runCommands [i, i] s = .next u := by
  rw [runCommands_cons hst, runCommands_cons htu, runCommands_nil]

/-- Settles O23: the first run of a command leaves the key and the lengths, so the second enciphers under the same key. -/
theorem cipherSelfInverse : Obligations.CipherSelfInverse := by
  refine ⟨sc_sc, fun s h0 h => ?_⟩
  have hk : s.keyOperand = .ok (keyOf s.key s.keylen.val h0 h) := keyOperand_ok h0 h
  refine ⟨fun hd => ?_, ?_, ?_⟩
  · exact ⟨_, runCommands_twice (exec_cipher_of_keyOperand hk hd) (exec_cipher_of_keyOperand hk hd),
      scPrefix_scPrefix _ _ hd⟩
  · exact ⟨_, runCommands_twice (exec_cipheri_of_keyOperand hk) (exec_cipheri_of_keyOperand hk), scPad_scPad _ _⟩
  · exact ⟨_, runCommands_twice (exec_ciphero_of_keyOperand hk) (exec_ciphero_of_keyOperand hk), scPad_scPad _ _⟩

end Sys2Proof.Machine
end

section
/-! PROOFS. The validator's context commands (45_validator.md): the six `SETx` (R201 to R207) and `VERIFY` (R210). -/

namespace Sys2Proof

/-- A string that fills a buffer replaces all of it, whatever was there (R10). -/
theorem Buf.put_full_eq_put_full {n : Nat} (b c : Buf n) {t : List Byte} (h : t.length = n) : b.put 0 t = c.put 0 t :=
  Buf.bytes_inj (by rw [Buf.bytes_put_full b t h, Buf.bytes_put_full c t h])

/-- A whole buffer filled from the front of a wider one holds the front's bytes (R201). -/
theorem Buf.get_put_slice {w n : Nat} (b : Buf w) (d : Buf n) (h : w ≤ n) {i : Nat} (hi : i < w) :
    (b.put 0 (d.slice 0 w)).get i = d.get i := by
  rw [Buf.get_put _ _ (Nat.zero_le w), if_pos (by simp; omega), Buf.slice_getD _ (by omega)]
  rw [Nat.sub_zero, Nat.zero_add]

/-- Two buffers compare equal exactly when all their bytes are equal (R210, R270). -/
theorem Buf.beq_iff_get {n : Nat} (a b : Buf n) : (a == b) = true ↔ ∀ i < n, a.get i = b.get i :=
  beq_iff_eq.trans ⟨fun h _ _ => congrArg (Buf.get · _) h, Buf.ext_get⟩

end Sys2Proof

namespace Sys2Proof.Machine

/-! The sets of fields of fixed width (R202 to R205, R207). -/

/-- A staged string of the field's width is stored and its flag set (R201). -/
theorem setFixed_of_eq {w : Nat} {s : State} (h : s.datalen.val = w) (k : Nat) (store : List Byte → State → State) :
    setFixed k w store s = finish ((store (s.data.slice 0 w) s).markSet k) := by
  rw [setFixed, stagedField_ok h]

/-- A staged string of any other length is not stored (R201). -/
theorem setFixed_of_ne {w : Nat} {s : State} (h : s.datalen.val ≠ w) (k : Nat) (store : List Byte → State → State) :
    setFixed k w store s = raise .badLength s := by
  rw [setFixed, stagedField_wrong h]

theorem exec_setkek1 (s : State) :
    exec .setkek1 s = setFixed 0 16 (fun f s => { s with kekh1 := s.kekh1.put 0 f }) s := rfl

theorem exec_setkek2 (s : State) :
    exec .setkek2 s = setFixed 1 16 (fun f s => { s with kekh2 := s.kekh2.put 0 f }) s := rfl

theorem exec_seteipad (s : State) :
    exec .seteipad s = setFixed 2 64 (fun f s => { s with eipad := s.eipad.put 0 f }) s := rfl

theorem exec_seteopad (s : State) :
    exec .seteopad s = setFixed 3 64 (fun f s => { s with eopad := s.eopad.put 0 f }) s := rfl

theorem exec_setresp (s : State) :
    exec .setresp s = setFixed 5 32 (fun f s => { s with expresp := s.expresp.put 0 f }) s := rfl

/-- Settles O30: both halves receive the same 16 staged bytes, so the one buffer stands for both. -/
theorem setKekHalves : Obligations.SetKekHalves := by
  obtain ⟨-, -, ⟨hdecode1, hdecode2, -⟩, -⟩ := opcodeMapWords
  refine ⟨⟨hdecode1, hdecode2⟩, fun s => ⟨fun h => ?_, fun h => ?_⟩⟩
  · have hsame : s.kekh2.put 0 (s.data.slice 0 16) = s.kekh1.put 0 (s.data.slice 0 16) :=
      Buf.put_full_eq_put_full _ _ (by simp)
    exact ⟨_, _, fun i hi => Buf.get_put_slice s.kekh1 s.data (by decide) hi, hsame,
      (exec_setkek1 s).trans (setFixed_of_eq h ..), (exec_setkek2 s).trans (setFixed_of_eq h ..)⟩
  · exact ⟨(exec_setkek1 s).trans (setFixed_of_ne h ..), (exec_setkek2 s).trans (setFixed_of_ne h ..)⟩

/-- Settles O31: both pads receive the same 64 staged bytes, so the one buffer stands for both. -/
theorem setEncryptedPads : Obligations.SetEncryptedPads := by
  obtain ⟨-, -, ⟨-, -, hdecode1, hdecode2, -⟩, -⟩ := opcodeMapWords
  refine ⟨⟨hdecode1, hdecode2⟩, fun s => ⟨fun h => ?_, fun h => ?_⟩⟩
  · have hsame : s.eopad.put 0 (s.data.slice 0 64) = s.eipad.put 0 (s.data.slice 0 64) :=
      Buf.put_full_eq_put_full _ _ (by simp)
    refine ⟨_, fun i hi => Buf.get_put_slice s.eipad s.data (by decide) hi,
      (exec_seteipad s).trans (setFixed_of_eq h ..), ?_⟩
    rw [← hsame]
    exact (exec_seteopad s).trans (setFixed_of_eq h ..)
  · exact ⟨(exec_seteipad s).trans (setFixed_of_ne h ..), (exec_seteopad s).trans (setFixed_of_ne h ..)⟩

/-- Settles O33: 32 staged bytes fill the whole field. -/
theorem setExpectedResponse : Obligations.SetExpectedResponse := by
  obtain ⟨-, -, ⟨-, -, -, -, -, hdecode, -⟩, -⟩ := opcodeMapWords
  refine ⟨hdecode, fun s => ⟨fun h => ?_, fun h => (exec_setresp s).trans (setFixed_of_ne h ..)⟩⟩
  exact ⟨_, fun i hi => Buf.get_put_slice s.expresp s.data (by decide) hi,
    (exec_setresp s).trans (setFixed_of_eq h ..)⟩

/-! The challenge (R206). -/

/-- What storing a staged challenge leaves at offset `i`: its byte, and 0x00 behind its end (R206). -/
theorem get_chal_storeChallenge (s : State) {n i : Nat} (hn : n ≤ 256) (hi : i < 256) :
    (s.storeChallenge (s.data.slice 0 n)).chal.get i = if i < n then s.data.get i else 0 := by
  have hlen : (s.data.slice 0 n).length = n := by simp [hn]
  rw [State.storeChallenge, Buf.get_put _ _ (hlen.trans_le hn), Buf.get_put _ _ (Nat.zero_le _), hlen]
  by_cases h : i < n
  · rw [if_neg (by omega), if_pos (by omega), if_pos h, Nat.sub_zero, Buf.slice_getD _ (by omega), Nat.zero_add]
  · rw [if_pos (by simp; omega), if_neg h, List.getD_replicate _ (by simp; omega)]

/-- Settles O32: the two outcomes of `SETCHAL` are the two clauses, and their lengths exclude each other. -/
theorem setChallenge : Obligations.SetChallenge := by
  obtain ⟨-, -, ⟨-, -, -, -, hdecode, -⟩, -⟩ := opcodeMapWords
  refine ⟨hdecode, fun s => ?_⟩
  obtain ⟨(hlong : 256 < s.datalen.val), hexec⟩ | ⟨(h : s.datalen.val ≤ 256), hexec⟩ := execSetchal_cases s
  · exact ⟨by omega, fun _ => hexec⟩
  · exact ⟨fun _ => ⟨_, fun i hi => get_chal_storeChallenge s h hi, hexec⟩, by omega⟩

/-! `VERIFY` (R210). -/

theorem exec_verify_of_present {s : State} (h : s.present = allPresent) :
    exec .verify s = finish s.loadKek.decryptPads.recompute.compare :=
  if_neg (not_not.mpr ((absent_eq_zero_iff s).mpr h))

theorem exec_verify_of_absent {s : State} (h : s.present ≠ allPresent) :
    exec .verify s = raise (.missingField s.absent) s :=
  if_pos ((absent_eq_zero_iff s).not.mpr h)

/-- The six bits of `MISSING` are those of `PRESENT` inverted (R31). -/
theorem absent_eq_not_present (s : State) : s.absent = ~~~s.present := BitVec.and_allOnes

/-- The bytes of the KEK: half1, then half2 (R210). -/
theorem getD_kek_bytes (s : State) (i : Nat) :
    s.kek.bytes.getD i 0 = if i < 16 then s.kekh1.get i else s.kekh2.get (i - 16) := by
  rw [kek_bytes]
  split
  next h => rw [List.getD_append _ _ _ _ (by simpa using h), Buf.bytes_getD]
  next h => rw [List.getD_append_right _ _ _ _ (by simpa using h), Buf.bytes_length, Buf.bytes_getD]

/-- The KEK stands in the first 32 bytes of `KEY`; the others keep their values (R210). -/
theorem get_key_loadKek (s : State) {i : Nat} (hi : i < 256) :
    s.loadKek.key.get i =
      if i < 16 then s.kekh1.get i else if i < 32 then s.kekh2.get (i - 16) else s.key.get i := by
  rw [loadKek_key, Buf.get_put _ _ (Nat.zero_le _), kek_length, Nat.sub_zero, getD_kek_bytes]
  by_cases h : i < 32
  · rw [if_pos ⟨hi, Nat.zero_le i, by omega⟩, if_pos h]
  · rw [if_neg (by omega), if_neg (by omega), if_neg h]

/-- Settles O34: the state after `VERIFY` is that of its lines in order, and the equality of two buffers is that of all bytes. -/
theorem verifyRecomputesAndCompares : Obligations.VerifyRecomputesAndCompares := by
  obtain ⟨-, -, ⟨-, -, -, -, -, -, hdecode⟩, -⟩ := opcodeMapWords
  refine ⟨hdecode, fun s => ⟨fun h hlen => ?_, fun h => ?_⟩⟩
  · refine ⟨s.kek, _, _, _, _, _, _, _, exec_verify_of_present h, rfl, fun i hi => get_key_loadKek s hi,
      scPad_bytes _ _, scPad_bytes _ _, ?_, rfl, fun i _ => Buf.get_xor _ _ i, Buf.beq_iff_get _ _⟩
    rw [← Buf.slice_eq_map _ hlen]
    rfl
  · rw [← absent_eq_not_present]
    exact exec_verify_of_absent h

end Sys2Proof.Machine
end

section
/-! PROOFS. The transitions of the validator's state (45_validator.md, R200): what each kind of command leaves of the context. -/

namespace Sys2Proof.Machine

/-! `VSTATE` from the flags (R39), and the flags from `VSTATE` under the invariant. -/

theorem vstate_of_sameContext {s t : State} (h : t.SameContext s) : t.vstate = s.vstate := by
  obtain ⟨hpresent, hverified, hmatched, -⟩ := h
  rw [State.vstate, State.vstate, hpresent, hverified, hmatched]

/-- The inversion of `VSTATE` (R39): a verdict, or how many fields are present. -/
theorem vstate_cases (s : State) :
    (s.verified = true ∧ (s.vstate = .verifiedSuccess ∨ s.vstate = .verifiedFailure)) ∨
    (s.present = allPresent ∧ s.vstate = .readyToVerify) ∨
    (s.present = 0 ∧ s.vstate = .empty) ∨
    (s.present ≠ allPresent ∧ s.vstate = .partiallyProvisioned) := by
  cases hv : s.verified with
  | true =>
    rw [vstate_of_verified hv]
    cases s.matched <;> simp
  | false =>
    rw [vstate_of_not_verified hv]
    split_ifs with hall hnone <;> simp [*]

theorem present_of_vstate_empty {s : State} (h : s.vstate = .empty) : s.present = 0 := by
  simpa [h] using vstate_cases s

theorem present_of_vstate_partial {s : State} (h : s.vstate = .partiallyProvisioned) : s.present ≠ allPresent := by
  simpa [h] using vstate_cases s

theorem present_of_vstate_ready {s : State} (h : s.vstate = .readyToVerify) : s.present = allPresent := by
  simpa [h] using vstate_cases s

theorem verified_of_vstate {s : State} (h : s.vstate = .verifiedSuccess ∨ s.vstate = .verifiedFailure) :
    s.verified = true := by
  obtain h | h := h <;> simpa [h] using vstate_cases s

/-- From `ReadyToVerify` on all six fields are present (R212). -/
theorem present_of_vstate_full {s : State} (hs : s.Inv)
    (h : s.vstate = .readyToVerify ∨ s.vstate = .verifiedSuccess ∨ s.vstate = .verifiedFailure) :
    s.present = allPresent :=
  h.elim present_of_vstate_ready fun hdone => hs.verified_present (verified_of_vstate hdone)

/-! What a command can be and how it can end. -/

/-- Every command is a primitive one, `CLRCTX`, a set, or `VERIFY` (R59). -/
theorem instr_kind (i : Instr) : i.isPrimitive = true ∨ i = .clrctx ∨ i.isSet = true ∨ i = .verify := by
  cases i <;> decide

theorem sameContext_refl (s : State) : s.SameContext s := ⟨rfl, rfl, rfl, rfl, rfl, rfl, rfl, rfl, rfl, rfl⟩

/-- A primitive command ends in error, or changes primitive registers only and then completes (R59). -/
theorem exec_primitive_cases {i : Instr} (hi : i.isPrimitive = true) (s : State) :
    (∃ e, exec i s = raise e s) ∨ ∃ u, exec i s = finish u ∧ u.SameContext s := by
  cases i with
  | clrctx | setkek1 | setkek2 | seteipad | seteopad | setchal | setresp | verify => cases hi
  | nop | padkey | derive | xorpads => exact .inr ⟨_, rfl, sameContext_refl s⟩
  | hash =>
    obtain ⟨_, h⟩ | ⟨_, h⟩ := execHash_cases s
    · exact .inl ⟨_, h⟩
    · exact .inr ⟨_, h, sameContext_refl s⟩
  | hmac =>
    obtain ⟨_, h⟩ | ⟨_, h⟩ := execHmac_cases s
    · exact .inl ⟨_, h⟩
    · exact .inr ⟨_, h, sameContext_refl s⟩
  | cipher =>
    obtain ⟨_, h⟩ | ⟨_, _, h⟩ | ⟨_, _, _, h⟩ := execCipher_cases s
    · exact .inl ⟨_, h⟩
    · exact .inl ⟨_, h⟩
    · exact .inr ⟨_, h, sameContext_refl s⟩
  | cipheri =>
    obtain ⟨_, h⟩ | ⟨_, h⟩ | ⟨_, _, h⟩ := execCipheri_cases s
    · exact .inl ⟨_, h⟩
    · exact .inl ⟨_, h⟩
    · exact .inr ⟨_, h, sameContext_refl s⟩
  | ciphero =>
    obtain ⟨_, h⟩ | ⟨_, h⟩ | ⟨_, _, h⟩ := execCiphero_cases s
    · exact .inl ⟨_, h⟩
    · exact .inl ⟨_, h⟩
    · exact .inr ⟨_, h, sameContext_refl s⟩

/-- Every command ends with the record of an error and nothing else, or completes (R235, R236). -/
theorem exec_raise_or_finish (i : Instr) (s : State) : (∃ e, exec i s = raise e s) ∨ ∃ u, exec i s = finish u := by
  obtain hi | rfl | hi | rfl := instr_kind i
  · exact (exec_primitive_cases hi s).imp_right fun ⟨u, h, _⟩ => ⟨u, h⟩
  · exact .inr ⟨_, exec_clrctx s⟩
  · exact (set_flags hi s).imp (fun h => ⟨_, h⟩) fun ⟨_, _, _, h, _⟩ => ⟨_, h⟩
  · exact (execVerify_cases s).imp (fun h => ⟨_, h.2⟩) fun h => ⟨_, h.2⟩

theorem exec_next (i : Instr) (s : State) : ∃ t, exec i s = .next t :=
  (exec_raise_or_finish i s).elim (fun ⟨_, h⟩ => ⟨_, h⟩) fun ⟨_, h⟩ => ⟨_, h⟩

/-! What each kind of command leaves of the flags and so of `VSTATE`. -/

section
variable {i : Instr} {s t : State} (h : exec i s = .next t)
include h

theorem vstate_of_exec_error (he : t.errcode ≠ .ok) : t.vstate = s.vstate := by
  obtain ⟨e, hraise⟩ | ⟨u, hfinish⟩ := exec_raise_or_finish i s
  · rw [raise_eq_next (hraise.symm.trans h), complete_vstate]
  · rw [finish_eq_next (hfinish.symm.trans h)] at he
    exact absurd rfl he

theorem vstate_of_exec_primitive (hi : i.isPrimitive = true) : t.vstate = s.vstate := by
  obtain ⟨e, hraise⟩ | ⟨u, hfinish, hu⟩ := exec_primitive_cases hi s
  · rw [raise_eq_next (hraise.symm.trans h), complete_vstate]
  · rw [finish_eq_next (hfinish.symm.trans h), complete_vstate, vstate_of_sameContext hu]

theorem vstate_of_exec_clrctx (hi : i = .clrctx) : t.vstate = .empty := by
  subst hi
  rw [finish_eq_next h, complete_vstate]
  exact clearContext_vstate s

/-- A set that completes leaves no verdict, and the field's `PRESENT` bit beside those that were set (R201). -/
theorem flags_of_exec_set (hi : i.isSet = true) (he : t.errcode = .ok) :
    t.verified = false ∧ ∃ k < 6, t.present = s.present ||| (1#6 <<< k) := by
  obtain hraise | ⟨k, u, hk, hfinish, hu⟩ := set_flags hi s
  · rw [raise_eq_next (hraise.symm.trans h)] at he
    exact absurd he (CmdError.code_ne_ok .badLength)
  · rw [finish_eq_next (hfinish.symm.trans h)]
    exact ⟨rfl, k, hk, by rw [complete_present, markSet_present, hu]⟩

end

theorem errcode_of_exec_verify_absent {s t : State} (h : exec .verify s = .next t) (hp : s.present ≠ allPresent) :
    t.errcode = .missingField := by
  rw [raise_eq_next ((exec_verify_of_absent hp).symm.trans h)]
  rfl

/-- A `VERIFY` that completes leaves the comparison of the candidate with the expected response (R210). -/
theorem verdict_of_exec_verify {s t : State} (h : exec .verify s = .next t) (hp : s.present = allPresent) :
    t.errcode = .ok ∧ t.digest = s.candidate ∧
      t.vstate = if s.candidate == s.expresp then .verifiedSuccess else .verifiedFailure := by
  rw [finish_eq_next ((exec_verify_of_present hp).symm.trans h)]
  exact ⟨rfl, rfl, rfl⟩

/-! The rows of R200. -/

theorem or_bit_ne_zero : ∀ p : BitVec 6, ∀ k < 6, p ||| (1#6 <<< k) ≠ 0 := by decide

theorem bit_ne_allPresent : ∀ k < 6, 0#6 ||| (1#6 <<< k) ≠ allPresent := by decide

/-- The rows of a set that completes: its own field is present after it, and so is every field that was present before. -/
theorem vstate_of_exec_set {i : Instr} {s t : State} (hs : s.Inv) (h : exec i s = .next t) (hi : i.isSet = true)
    (he : t.errcode = .ok) :
    (s.vstate = .empty → t.vstate = .partiallyProvisioned) ∧
    (s.vstate = .partiallyProvisioned →
      (t.present ≠ 0b111111 → t.vstate = .partiallyProvisioned) ∧ (t.present = 0b111111 → t.vstate = .readyToVerify)) ∧
    (s.vstate = .readyToVerify ∨ s.vstate = .verifiedSuccess ∨ s.vstate = .verifiedFailure →
      t.vstate = .readyToVerify ∧ t.present = 0b111111) := by
  obtain ⟨hv, k, hk, hp⟩ := flags_of_exec_set h hi he
  have hnonzero : t.present ≠ 0 := hp ▸ or_bit_ne_zero s.present k hk
  have hpartial (hnot : t.present ≠ allPresent) : t.vstate = .partiallyProvisioned := by
    rw [vstate_of_not_verified hv, if_neg hnot, if_neg hnonzero]
  have hready (hall : t.present = allPresent) : t.vstate = .readyToVerify := by
    rw [vstate_of_not_verified hv, if_pos hall]
  refine ⟨fun hempty => hpartial ?_, fun _ => ⟨hpartial, hready⟩, fun hfull => ?_⟩
  · rw [hp, present_of_vstate_empty hempty]
    exact bit_ne_allPresent k hk
  · have hall : t.present = allPresent := by
      rw [hp, present_of_vstate_full hs hfull]
      exact BitVec.allOnes_or
    exact ⟨hready hall, hall⟩

/-- In a state whose `VERIFY` completed, `VSTATE` is the comparison of the candidate with the expected response as they stand. -/
theorem vstate_eq_verdict {s : State} (hs : s.Inv) (hv : s.verified = true) :
    s.vstate = if s.candidate == s.expresp then .verifiedSuccess else .verifiedFailure := by
  rw [vstate_of_verified hv, hs.verdict hv]

/-- Settles O40: each row of R200 from the flags that the kind of command leaves. -/
theorem validatorTransitions : Obligations.ValidatorTransitions := by
  refine ⟨⟨rfl, fun s hreset => ⟨s.popTurn.resetBlock, ?_, rfl⟩⟩, fun i s hs => ?_⟩
  · rw [step, hreset, takeTurn]
  obtain ⟨t, h⟩ := exec_next i s
  refine ⟨t, h, vstate_of_exec_error h, vstate_of_exec_primitive h, vstate_of_exec_clrctx h, vstate_of_exec_set hs h, ?_⟩
  refine ⟨?verifyAbsent, ?verifyReady, ?verifyAgain⟩ <;> rintro rfl hstate
  case verifyAbsent =>
    refine errcode_of_exec_verify_absent h ?_
    obtain hempty | hpartial := hstate
    · rw [present_of_vstate_empty hempty]
      decide
    · exact present_of_vstate_partial hpartial
  case verifyReady =>
    obtain ⟨hok, hdigest, hverdict⟩ := verdict_of_exec_verify h (present_of_vstate_full hs (.inl hstate))
    simp only [hok, hverdict, hdigest, beq_iff_eq, and_self]
  case verifyAgain =>
    obtain ⟨hok, -, hverdict⟩ := verdict_of_exec_verify h (present_of_vstate_full hs (.inr hstate))
    exact ⟨hok, hverdict.trans (vstate_eq_verdict hs (verified_of_vstate hstate)).symm⟩

end Sys2Proof.Machine
end

section
/-! PROOFS. Errors and the completion record (60_exceptions.md, R230 to R238): how an engine step ends. -/

namespace Sys2Proof.Machine

/-- The outcome `o` of a command performed in `s` ends with the cause `c` (R235, R236): the record of an error with its code
and its mask, or the record of a command that completes. -/
inductive EndsWith (s : State) : (o : Host.Outcome State Fault Refusal) → (c : ErrCode) → Prop
  | raised (e : CmdError) (hmask : e.mask = if e.code = .missingField then ~~~s.present else 0) :
    EndsWith s (raise e s) e.code
  | finished (u : State) : EndsWith s (finish u) .ok

section
variable {s u : State} {o : Host.Outcome State Fault Refusal} {c : ErrCode}

/-- The completion record of an outcome, field by field (R235). -/
theorem EndsWith.exists_next (h : EndsWith s o c) :
    ∃ t, o = .next t ∧ t.busy = false ∧ t.done = true ∧ t.errcode = c ∧
      t.missing = if t.errcode = .missingField then ~~~s.present else 0 := by
  cases h with
  | raised e hmask => exact ⟨_, rfl, rfl, rfl, rfl, hmask⟩
  | finished u => exact ⟨_, rfl, rfl, rfl, rfl, rfl⟩

theorem EndsWith.badLength : EndsWith s (raise .badLength s) .badLength := .raised .badLength rfl

theorem EndsWith.invalidKey : EndsWith s (raise .invalidKey s) .invalidKey := .raised .invalidKey rfl

/-! The conditions of R231 and R234 on a length, each with its error or none. -/

/-- A length that must not exceed the capacity (R234). -/
theorem endsWith_of_capacity {n : Nat} (h : (256 < n ∧ o = raise .badLength s) ∨ (n ≤ 256 ∧ o = finish u)) :
    EndsWith s o (if n > 256 then .badLength else .ok) := by
  obtain ⟨hlong, rfl⟩ | ⟨hle, rfl⟩ := h
  · rw [if_pos hlong]
    exact .badLength
  · rw [if_neg hle.not_gt]
    exact .finished u

/-- A key length that must be at least 1 and not exceed the capacity (R231, R234). -/
theorem endsWith_of_key {n : Nat} {u : 0 < n → n ≤ 256 → State}
    (h : (n = 0 ∧ o = raise .invalidKey s) ∨ (256 < n ∧ o = raise .badLength s) ∨ ∃ h0 hle, o = finish (u h0 hle)) :
    EndsWith s o (if n = 0 then .invalidKey else if n > 256 then .badLength else .ok) := by
  obtain ⟨hzero, rfl⟩ | ⟨hlong, rfl⟩ | ⟨hpos, hle, rfl⟩ := h
  · rw [if_pos hzero]
    exact .invalidKey
  · rw [if_neg (Nat.ne_zero_of_lt hlong), if_pos hlong]
    exact .badLength
  · rw [if_neg hpos.ne', if_neg hle.not_gt]
    exact .finished _

end

/-- A set of a field of fixed width, whose length must be that width (R201, R234). -/
theorem setFixed_endsWith (k w : Nat) (store : List Byte → State → State) (s : State) :
    EndsWith s (setFixed k w store s) (if s.datalen.val = w then .ok else .badLength) := by
  obtain ⟨hne, hset⟩ | ⟨heq, hset⟩ := setFixed_cases k w store s <;> rw [hset]
  · rw [if_neg hne]
    exact .badLength
  · rw [if_pos heq]
    exact .finished _

/-- `CIPHER`, whose two causes may coincide: the zero key comes first (R238). -/
theorem execCipher_endsWith (s : State) : EndsWith s (execCipher s) (errorOf .cipher s) := by
  rw [errorOf]
  obtain ⟨hzero, hexec⟩ | ⟨hpos, hlong, hexec⟩ | ⟨hpos, hkey, hdata, hexec⟩ := execCipher_cases s <;> rw [hexec]
  · rw [if_pos hzero]
    exact .invalidKey
  · rw [if_neg hpos.ne', if_pos hlong]
    exact .badLength
  · rw [if_neg hpos.ne', if_neg (not_or.mpr ⟨hkey.not_gt, hdata.not_gt⟩)]
    exact .finished _

/-- `VERIFY`, whose mask is the bits of `PRESENT` inverted (R31, R232). -/
theorem execVerify_endsWith (s : State) : EndsWith s (execVerify s) (errorOf .verify s) := by
  rw [errorOf]
  obtain ⟨habsent, hexec⟩ | ⟨hnone, hexec⟩ := execVerify_cases s <;> rw [hexec]
  · rw [if_neg ((absent_eq_zero_iff s).not.mp habsent)]
    exact .raised (.missingField s.absent) (absent_eq_not_present s)
  · rw [if_pos ((absent_eq_zero_iff s).mp hnone)]
    exact .finished _

/-- Every command ends with the first cause that holds (R238). -/
theorem exec_endsWith (i : Instr) (s : State) : EndsWith s (exec i s) (errorOf i s) := by
  cases i with
  | nop | clrctx | padkey | derive | xorpads => exact .finished _
  | hash => exact endsWith_of_capacity (execHash_cases s)
  | hmac => exact endsWith_of_capacity (execHmac_cases s)
  | cipher => exact execCipher_endsWith s
  | cipheri => exact endsWith_of_key (execCipheri_cases s)
  | ciphero => exact endsWith_of_key (execCiphero_cases s)
  | setkek1 => exact exec_setkek1 s ▸ setFixed_endsWith ..
  | setkek2 => exact exec_setkek2 s ▸ setFixed_endsWith ..
  | seteipad => exact exec_seteipad s ▸ setFixed_endsWith ..
  | seteopad => exact exec_seteopad s ▸ setFixed_endsWith ..
  | setchal => exact endsWith_of_capacity (execSetchal_cases s)
  | setresp => exact exec_setresp s ▸ setFixed_endsWith ..
  | verify => exact execVerify_endsWith s

/-- The cause that the engine step of a state records: an unknown byte's before any other (R238). -/
def causeOf (s : State) : ErrCode :=
  match decode s.cmd with
  | .ok i => errorOf i s
  | .error _ => .unknownCommand

theorem causeOf_of_unknown {s : State} {r : DecodeReject} (h : decode s.cmd = .error r) : causeOf s = .unknownCommand := by
  rw [causeOf, h]

theorem causeOf_of_command {s : State} {i : Instr} (h : decode s.cmd = .ok i) : causeOf s = errorOf i s := by
  rw [causeOf, h]

/-- Every engine step ends with the first cause that holds, whatever byte `CMD` holds (R235, R238). -/
theorem engineStep_endsWith (s : State) : EndsWith s (engineStep s) (causeOf s) := by
  obtain ⟨i, hdecode, hstep⟩ | ⟨c, hdecode, hstep⟩ := engineStep_cases s
  · rw [hstep, causeOf_of_command hdecode]
    exact exec_endsWith i s
  · rw [hstep, causeOf_of_unknown hdecode]
    exact .raised .unknownCommand rfl

/-- With `BUSY` = 1 and its turn the engine performs the command (R61, R66). -/
theorem step_of_engine {s : State} (hb : s.busy = true) (hm : s.mover = .engine) : step s = engineStep s.popTurn := by
  rw [step, hm, takeTurn, popTurn_busy, if_pos hb]

/-- Whose turn it was is nothing that a cause depends on. -/
theorem causeOf_popTurn (s : State) : causeOf s.popTurn = causeOf s := rfl

/-- Settles O42: the record of the engine step's outcome, with `ERR` as `STATUS` shows it. -/
theorem completionRecordAlways : Obligations.CompletionRecordAlways := by
  intro s hb hm
  obtain ⟨t, hnext, hbusy, hdone, hcode, hmissing⟩ := (engineStep_endsWith s.popTurn).exists_next
  obtain ⟨-, -, herr, -⟩ := statusBits t hbusy _ rfl
  exact ⟨t, (step_of_engine hb hm).trans hnext, hbusy, hdone, hcode.trans (causeOf_popTurn s), hmissing, herr⟩

/-- Settles O43: `ERRCODE` reads as the byte of its value, and every outcome's record holds the first cause. -/
theorem errorCauses : Obligations.ErrorCauses := by
  refine ⟨fun s hb => ?reads, fun i s => ?command, fun s c hunknown => ?unknown⟩
  case reads =>
    have hread : memRead 0x002 s = s.errcode.byte := memRead_addr_idle hb .errcode Nat.one_pos
    rw [hread]
    refine ⟨?_, ?_, ?_, ?_, ?_⟩ <;> intro herr <;> rw [herr, ErrCode.byte]
  case command =>
    obtain ⟨t, hnext, -, -, hcode, -⟩ := (exec_endsWith i s).exists_next
    exact ⟨t, hnext, hcode⟩
  case unknown =>
    obtain ⟨t, hnext, -, -, hcode, -⟩ := (engineStep_endsWith s).exists_next
    exact ⟨t, hnext, hcode.trans (causeOf_of_unknown hunknown)⟩

/-- Settles O44: a command that records an error raises it, and to raise is to write the record only. -/
theorem errorsArePrecise : Obligations.ErrorsArePrecise := by
  intro i s t h he
  obtain ⟨e, hraise⟩ | ⟨u, hfinish⟩ := exec_raise_or_finish i s
  · rw [raise_eq_next (hraise.symm.trans h)]
    rfl
  · rw [finish_eq_next (hfinish.symm.trans h)] at he
    exact absurd rfl he

end Sys2Proof.Machine
end

section
/-! PROOFS. The decoder and the encoder (30_encoding.md), and one step by its mover (R61, R66, R73). -/

namespace Sys2Proof

/-! Both ways between bytes and commands (R94, R96). -/

theorem code_eq_encode_of_mem : ∀ r ∈ opcodeMap, r.code = encode r.instr := by decide

theorem decode_encode (i : Instr) : decode (encode i) = .ok i := by cases i <;> decide

theorem eq_encode_of_decode {b : Byte} {i : Instr} (h : decode b = .ok i) : b = encode i := by
  rw [decode] at h
  split at h
  next r hr =>
    have hcode : r.code = b := by simpa using List.find?_some hr
    cases h
    rw [← hcode, code_eq_encode_of_mem r (List.mem_of_find?_eq_some hr)]
  next => cases h

/-- Settles O2: each row of the map holds the encoder's code of its command. -/
theorem decodeEncodeAgree : Obligations.DecodeEncodeAgree := fun _ i =>
  ⟨eq_encode_of_decode, fun h => h ▸ decode_encode i⟩

end Sys2Proof

namespace Sys2Proof.Machine

/-! What a step answers for each mover. -/

section
variable {s : State}

theorem step_of_host (hm : s.mover = .host) : step s = .next s.popTurn.hostAccess := by
  rw [step, hm, takeTurn]

/-- A turn of the engine with no command pending passes (log 4). -/
theorem step_of_engine_idle (hb : s.busy = false) (hm : s.mover = .engine) : step s = .next s.popTurn := by
  rw [step, hm, takeTurn, popTurn_busy, hb]
  rfl

theorem step_of_reset (hm : s.mover = .reset) : step s = .next s.popTurn.resetBlock := by
  rw [step, hm, takeTurn]

theorem engineStep_of_command {i : Instr} (h : decode s.cmd = .ok i) : engineStep s = exec i s := by
  rw [engineStep, h]

theorem engineStep_of_unknown {r : DecodeReject} (h : decode s.cmd = .error r) :
    engineStep s = raise .unknownCommand s := by
  rw [engineStep, h]

end

theorem engineStep_next (s : State) : ∃ t, engineStep s = .next t :=
  let ⟨t, h, _⟩ := (engineStep_endsWith s).exists_next
  ⟨t, h⟩

/-- Settles O4: the step is the engine's, which performs the decoded command. -/
theorem stepRunsAcceptedCommand : Obligations.StepRunsAcceptedCommand := by
  intro s i hb hm hdecode
  rw [step_of_engine hb hm, engineStep_of_command (by rwa [popTurn_cmd])]
  rfl

/-- Settles O5: a byte that is no command's code does not decode to one, so the engine raises `UnknownCommand`. -/
theorem unknownCommandStep : Obligations.UnknownCommandStep := by
  refine ⟨rfl, fun s hb hm hne => ?_⟩
  cases hdecode : decode s.cmd with
  | ok i => exact absurd (eq_encode_of_decode hdecode) (hne i)
  | error r =>
    rw [step_of_engine hb hm, engineStep_of_unknown (by rwa [popTurn_cmd])]
    rfl

/-- Settles O6: a host access, a passed turn and a reset answer a state outright, and so does the engine's completion. -/
theorem stepAlwaysNext : Obligations.StepAlwaysNext := by
  intro s
  cases hm : s.mover with
  | host => exact ⟨_, step_of_host hm⟩
  | reset => exact ⟨_, step_of_reset hm⟩
  | engine =>
    cases hb : s.busy with
    | true =>
      obtain ⟨t, h⟩ := engineStep_next s.popTurn
      exact ⟨t, (step_of_engine hb hm).trans h⟩
    | false => exact ⟨_, step_of_engine_idle hb hm⟩

/-- Settles O7: `resetBlock` keeps the model's own fields only. -/
theorem resetReplacesState : Obligations.ResetReplacesState := fun _ => step_of_reset

/-! Reads, also while `BUSY` = 1 (R62, R65). -/

theorem memRead_cmd_busy {s : State} (hb : s.busy = true) : memRead (Reg.cmd.addr 0) s = s.cmd := by
  rw [memRead_busy hb, State.busyByteAt, locate_addr _ Nat.one_pos]

theorem memRead_status_busy {s : State} (hb : s.busy = true) :
    memRead (Reg.status.addr 0) s = s.busyStatus (Config.freeByte s.draws) := by
  rw [memRead_busy hb, State.busyByteAt, locate_addr _ Nat.one_pos]

/-- Settles O52: the bits that R65 fixes are not those taken from the free byte. -/
theorem busyReads : Obligations.BusyReads := by
  rintro s hb
  refine ⟨memRead_cmd_busy hb, ?_⟩
  rintro _ rfl
  have hstatus : memRead 0x001 s = s.busyStatus (Config.freeByte s.draws) := memRead_status_busy hb
  rw [hstatus]
  simp only [State.busyStatus, getLsbD_packStatus]
  simp

/-- Settles O53: the access takes itself off the program and records what it read. -/
theorem readsChangeNothing : Obligations.ReadsChangeNothing := by
  intro s a rest hm hp
  have haccess : s.popTurn.hostAccess = { s.popTurn with program := rest }.recordRead a := by
    rw [State.hostAccess, popTurn_program, hp]
  exact ⟨_, (step_of_host hm).trans (congrArg _ haccess), rfl, rfl, rfl⟩

end Sys2Proof.Machine
end

section
/-! PROOFS. Every command in one form (R59): it reads its operand, which may be an error; then it does its work and completes.
So what holds of every command is shown of its operand and its work. -/

namespace Sys2Proof.Machine

/-- What a command reads, its middle column in R59: of a bounded buffer the string below the length, of `VERIFY` the KEK, the
encrypted pads, the challenge and the expected response. -/
abbrev Operand : Instr → Type
  | .nop | .clrctx => Unit
  | .padkey | .derive => List Byte
  | .xorpads => Buf 64 × Buf 64
  | .hash => List Byte
  | .hmac => (Buf 64 × Buf 64) × List Byte
  | .cipher => CipherKey × List Byte
  | .cipheri | .ciphero => CipherKey × Buf 64
  | .setkek1 | .setkek2 | .seteipad | .seteopad | .setresp => List Byte
  | .setchal => List Byte × Len16
  | .verify => CipherKey × (Buf 64 × Buf 64) × List Byte × Buf 32

/-- The operand a state holds for a command, or the error of R231, R232 or R234. -/
def readOperand (s : State) : (i : Instr) → Except CmdError (Operand i)
  | .nop | .clrctx => .ok ()
  | .padkey | .derive => .ok s.secretOperand
  | .xorpads => .ok (s.ipad, s.opad)
  | .hash => s.msgOperand
  | .hmac => s.msgOperand.map ((s.ipad, s.opad), ·)
  | .cipher => s.keyOperand.bind fun k => s.dataOperand.map (k, ·)
  | .cipheri => s.keyOperand.map (·, s.ipad)
  | .ciphero => s.keyOperand.map (·, s.opad)
  | .setkek1 | .setkek2 => s.stagedField 16
  | .seteipad | .seteopad => s.stagedField 64
  | .setresp => s.stagedField 32
  | .setchal => s.dataOperand.map (·, s.datalen)
  | .verify =>
    if s.absent ≠ 0 then .error (.missingField s.absent)
    else .ok (s.kek, (s.eipad, s.eopad), s.challenge, s.expresp)

/-- What a command writes for an operand, before its completion record. -/
def effect (s : State) : (i : Instr) → Operand i → State
  | .nop, _ => s
  | .clrctx, _ => s.clearContext
  | .padkey, x => { s with pkey := padKey x }
  | .derive, x => { s with pkey := padKey x, ipad := (derivePads x).1, opad := (derivePads x).2 }
  | .xorpads, x => { s with kpdiag := x.1.xor x.2 }
  | .hash, m => { s with digest := sha256 m }
  | .hmac, x => { s with inner := (hmacF x.1.1 x.1.2 x.2).1, digest := (hmacF x.1.1 x.1.2 x.2).2 }
  | .cipher, x => { s with data := s.data.put 0 (sc x.1 x.2) }
  | .cipheri, x => { s with ipad := scPad x.1 x.2 }
  | .ciphero, x => { s with opad := scPad x.1 x.2 }
  | .setkek1, f => { s with kekh1 := s.kekh1.put 0 f }.markSet 0
  | .setkek2, f => { s with kekh2 := s.kekh2.put 0 f }.markSet 1
  | .seteipad, f => { s with eipad := s.eipad.put 0 f }.markSet 2
  | .seteopad, f => { s with eopad := s.eopad.put 0 f }.markSet 3
  | .setchal, x => { s.storeChallenge x.1 with challen := x.2 }.markSet 4
  | .setresp, f => { s with expresp := s.expresp.put 0 f }.markSet 5
  | .verify, x =>
    { s with
      key := s.key.put 0 x.1.bytes
      keylen := ⟨0x20, 0x00⟩
      ipad := scPad x.1 x.2.1.1
      opad := scPad x.1 x.2.1.2
      inner := (hmacF (scPad x.1 x.2.1.1) (scPad x.1 x.2.1.2) x.2.2.1).1
      digest := (hmacF (scPad x.1 x.2.1.1) (scPad x.1 x.2.1.2) x.2.2.1).2
      kpdiag := (scPad x.1 x.2.1.1).xor (scPad x.1 x.2.1.2)
      verified := true
      matched := (hmacF (scPad x.1 x.2.1.1) (scPad x.1 x.2.1.2) x.2.2.1).2 == x.2.2.2 }

/-- An operand that is an error is taken (R236); with any other the work is done and the command completes (R235). -/
def perform {α : Type} (s : State) (work : α → State) : Except CmdError α → Host.Outcome State Fault Refusal
  | .error e => raise e s
  | .ok x => finish (work x)

/-- The form of every command. -/
theorem exec_eq_perform (i : Instr) (s : State) : exec i s = perform s (effect s i) (readOperand s i) := by
  cases i with
  | nop | clrctx | padkey | derive | xorpads => rfl
  | hash =>
    simp only [exec, execHash, readOperand]
    cases s.msgOperand <;> rfl
  | hmac =>
    simp only [exec, execHmac, readOperand]
    cases s.msgOperand <;> rfl
  | cipher =>
    simp only [exec, execCipher, readOperand]
    cases s.keyOperand with
    | error e => rfl
    | ok k => cases s.dataOperand <;> rfl
  | cipheri =>
    simp only [exec, execCipheri, readOperand]
    cases s.keyOperand <;> rfl
  | ciphero =>
    simp only [exec, execCiphero, readOperand]
    cases s.keyOperand <;> rfl
  | setkek1 | setkek2 =>
    simp only [exec, execSetkek1, execSetkek2, setFixed, readOperand]
    cases s.stagedField 16 <;> rfl
  | seteipad | seteopad =>
    simp only [exec, execSeteipad, execSeteopad, setFixed, readOperand]
    cases s.stagedField 64 <;> rfl
  | setresp =>
    simp only [exec, execSetresp, setFixed, readOperand]
    cases s.stagedField 32 <;> rfl
  | setchal =>
    simp only [exec, execSetchal, readOperand]
    cases s.dataOperand <;> rfl
  | verify =>
    obtain ⟨h, hexec⟩ | ⟨h, hexec⟩ := execVerify_cases s
    · rw [exec, hexec, readOperand, if_pos h]
      rfl
    · rw [exec, hexec, readOperand, if_neg (not_not.mpr h)]
      rfl

/-- The inversion of a command: the operand's error with its record, or the work with the record of no error. -/
theorem exec_cases (i : Instr) (s : State) :
    (∃ e, readOperand s i = .error e ∧ exec i s = .next (s.complete e.code e.mask)) ∨
    (∃ x, readOperand s i = .ok x ∧ exec i s = .next ((effect s i x).complete .ok 0)) := by
  rw [exec_eq_perform]
  cases readOperand s i with
  | error e => exact .inl ⟨e, rfl, rfl⟩
  | ok x => exact .inr ⟨x, rfl, rfl⟩

end Sys2Proof.Machine
end

section
/-! PROOFS. What every command leaves unchanged (10_state.md section 2, R59; 60_exceptions.md, R236). -/

namespace Sys2Proof.Machine

/-- The completion record writes `STATUS`, `ERRCODE` and `MISSING` only (R235). -/
theorem regByte_complete (s : State) (e : ErrCode) (m : BitVec 6) {r : Reg} (hr : r ∉ recordRegs) (j : Nat) :
    (s.complete e m).regByte r j = s.regByte r j := by
  cases r <;> try rfl
  all_goals exact absurd (by decide) hr

/-- A command's work leaves the registers that R59 does not list as written by it: of the 17 rows and 31 registers, each pair is
one that the work does not touch, or one that the table lists. -/
theorem regByte_effect {i : Instr} {r : Reg} (hr : r ∉ writtenBy i) (s : State) (x : Operand i) (j : Nat) :
    (effect s i x).regByte r j = s.regByte r j := by
  cases i <;> cases r <;> try rfl
  all_goals exact absurd (by decide) hr

/-- A command's work leaves `WRBUSY` and what stands outside the block. -/
theorem outside_effect (s : State) (i : Instr) (x : Operand i) :
    (effect s i x).wrbusy = s.wrbusy ∧ (effect s i x).program = s.program ∧ (effect s i x).turns = s.turns ∧
      (effect s i x).reads = s.reads ∧ (effect s i x).draws = s.draws := by
  cases i <;> exact ⟨rfl, rfl, rfl, rfl, rfl⟩

/-- Settles O45: the record and the work each leave every other register, and a reserved address reads 0 whatever the state. -/
theorem frameByAddress : Obligations.FrameByAddress := by
  intro i s t h
  have hnone : ∀ a, locate a = none → t.byteAt a = s.byteAt a := fun a ha => by rw [byteAt_none t ha, byteAt_none s ha]
  obtain ⟨e, -, hexec⟩ | ⟨x, -, hexec⟩ := exec_cases i s
  · cases hexec.symm.trans h
    refine ⟨fun a r j ha hr _ => ?_, hnone, rfl, rfl, rfl, rfl, rfl⟩
    simp only [State.byteAt, ha]
    exact regByte_complete s _ _ hr j
  · cases hexec.symm.trans h
    refine ⟨fun a r j ha hr hw => ?_, hnone, outside_effect s i x⟩
    simp only [State.byteAt, ha]
    exact (regByte_complete _ _ _ hr j).trans (regByte_effect (hw rfl) s x j)

end Sys2Proof.Machine
end

section
/-! PROOFS. What a command depends on: its operand (R59), and of an operand buffer the bytes below the length (R269). -/

namespace Sys2Proof

/-- Two buffers that agree below `k` have the same first `k` bytes. -/
theorem Buf.slice_congr {n k : Nat} {a b : Buf n} (h : ∀ i < k, a.get i = b.get i) : a.slice 0 k = b.slice 0 k := by
  apply List.ext_getElem
  · simp
  · intro i ha hb
    have hi : 0 + i < k := by simp at ha; omega
    rw [← List.getD_eq_getElem _ 0 ha, ← List.getD_eq_getElem _ 0 hb, Buf.slice_getD _ hi, Buf.slice_getD _ hi,
      h _ hi]

/-- What a string written to the front covers does not depend on the old bytes. -/
theorem Buf.get_put_zero_congr {n i : Nat} (a b : Buf n) {t : List Byte} (hi : i < n) (h : i < t.length) :
    (a.put 0 t).get i = (b.put 0 t).get i := by
  simp [Buf.get_put, hi, h]

end Sys2Proof

namespace Sys2Proof.Machine

theorem Len16.ext {x y : Len16} (hlo : x.lo = y.lo) (hhi : x.hi = y.hi) : x = y := by
  cases x; cases y; simp_all

/-! Operands of two states whose buffers agree below the length. -/

section
variable {s s' : State}

theorem secretOperand_congr (hlen : s.seclen = s'.seclen) (h : ∀ i < s.seclen.toNat, s.secret.get i = s'.secret.get i) :
    s.secretOperand = s'.secretOperand := by
  rw [State.secretOperand, State.secretOperand, ← hlen]
  exact Buf.slice_congr fun i hi => h i (hi.trans_le (Nat.min_le_left _ _))

theorem msgOperand_congr (hlen : s.msglen = s'.msglen) (h : ∀ i < s.msglen.val, s.msg.get i = s'.msg.get i) :
    s.msgOperand = s'.msgOperand := by
  rw [State.msgOperand, State.msgOperand, ← hlen, Buf.slice_congr h]

theorem dataOperand_congr (hlen : s.datalen = s'.datalen) (h : ∀ i < s.datalen.val, s.data.get i = s'.data.get i) :
    s.dataOperand = s'.dataOperand := by
  rw [State.dataOperand, State.dataOperand, ← hlen, Buf.slice_congr h]

theorem stagedField_congr (hlen : s.datalen = s'.datalen) (h : ∀ i < s.datalen.val, s.data.get i = s'.data.get i)
    (w : Nat) : s.stagedField w = s'.stagedField w := by
  rw [State.stagedField, State.stagedField, ← hlen]
  split
  next => rfl
  next hw => rw [← not_not.mp hw, Buf.slice_congr h]

theorem keyOperand_congr (hlen : s.keylen = s'.keylen) (h : ∀ i < s.keylen.val, s.key.get i = s'.key.get i) :
    s.keyOperand = s'.keyOperand := by
  simp only [State.keyOperand, keyOf, ← hlen, Buf.slice_congr h]

/-! What is known of an operand that is no error. -/

theorem length_of_stagedField {w : Nat} {f : List Byte} (h : s.stagedField w = .ok f) (hw : w ≤ 256) : f.length = w := by
  obtain ⟨-, he⟩ | ⟨-, he⟩ := stagedField_cases s w
  · cases he.symm.trans h
  · cases he.symm.trans h
    simp [hw]

theorem length_of_dataOperand {c : List Byte} (h : s.dataOperand = .ok c) : c.length = s.datalen.val ∧ c.length ≤ 256 := by
  obtain ⟨-, he⟩ | ⟨hle, he⟩ := dataOperand_cases s
  · cases he.symm.trans h
  · cases he.symm.trans h
    simpa using hle

theorem dataOperand_of_setchal {x : List Byte × Len16} (h : readOperand s .setchal = .ok x) :
    s.dataOperand = .ok x.1 ∧ x.2 = s.datalen := by
  rw [readOperand] at h
  cases hd : s.dataOperand with
  | error e => rw [hd] at h; cases h
  | ok c => rw [hd] at h; cases h; exact ⟨rfl, rfl⟩

theorem dataOperand_of_cipher {x : CipherKey × List Byte} (h : readOperand s .cipher = .ok x) : s.dataOperand = .ok x.2 := by
  rw [readOperand] at h
  cases hk : s.keyOperand with
  | error e => rw [hk] at h; cases h
  | ok k =>
    cases hd : s.dataOperand with
    | error e => rw [hk, hd] at h; cases h
    | ok d => rw [hk, hd] at h; cases h; rfl

/-- `VERIFY` takes an operand with all six fields present only, and it is the context store (R210). -/
theorem verify_operand {x : Operand .verify} (h : readOperand s .verify = .ok x) :
    s.present = allPresent ∧ x = (s.kek, (s.eipad, s.eopad), s.challenge, s.expresp) := by
  rw [readOperand] at h
  split at h
  next => cases h
  next habsent =>
    cases h
    exact ⟨(absent_eq_zero_iff s).mp (not_not.mp habsent), rfl⟩

/-- A stored challenge covers the whole buffer, so nothing of an older one stays (R206). -/
theorem chal_storeChallenge_congr {c : List Byte} (hc : c.length ≤ 256) :
    (s.storeChallenge c).chal = (s'.storeChallenge c).chal := by
  refine Buf.ext_get fun i (hi : i < 256) => ?_
  simp only [storeChallenge_chal, Buf.get_put _ _ hc, Buf.get_put _ _ (Nat.zero_le _), List.length_replicate,
    Config.chalMax]
  split
  · rfl
  · rw [if_pos (by omega), if_pos (by omega)]

end

/-! Two states that agree on what a command reads. -/

/-- The two states hold the same bytes in the registers. -/
def AgreeOn (rs : List Reg) (s s' : State) : Prop := ∀ r ∈ rs, ∀ j < r.size, s.regByte r j = s'.regByte r j

section
variable {s s' : State}

theorem AgreeOn.mono {rs qs : List Reg} (h : AgreeOn rs s s') (hq : ∀ q ∈ qs, q ∈ rs) : AgreeOn qs s s' :=
  fun q hm => h q (hq q hm)

theorem AgreeOn.secretOperand (h : AgreeOn [.secret, .seclen] s s') : s.secretOperand = s'.secretOperand := by
  have hbuf : s.secret = s'.secret := Buf.ext_get (h .secret (by decide))
  exact secretOperand_congr (h .seclen (by decide) 0 (by decide)) fun _ _ => by rw [hbuf]

theorem AgreeOn.pads (h : AgreeOn [.ipad, .opad] s s') : s.ipad = s'.ipad ∧ s.opad = s'.opad :=
  ⟨Buf.ext_get (h .ipad (by decide)), Buf.ext_get (h .opad (by decide))⟩

theorem AgreeOn.msgOperand (h : AgreeOn [.msg, .msglenLo, .msglenHi] s s') : s.msgOperand = s'.msgOperand := by
  have hbuf : s.msg = s'.msg := Buf.ext_get (h .msg (by decide))
  exact msgOperand_congr (Len16.ext (h .msglenLo (by decide) 0 (by decide)) (h .msglenHi (by decide) 0 (by decide)))
    fun _ _ => by rw [hbuf]

theorem AgreeOn.keyOperand (h : AgreeOn [.key, .keylenLo, .keylenHi] s s') : s.keyOperand = s'.keyOperand := by
  have hbuf : s.key = s'.key := Buf.ext_get (h .key (by decide))
  exact keyOperand_congr (Len16.ext (h .keylenLo (by decide) 0 (by decide)) (h .keylenHi (by decide) 0 (by decide)))
    fun _ _ => by rw [hbuf]

theorem AgreeOn.data (h : AgreeOn [.data, .datalenLo, .datalenHi] s s') : s.data = s'.data ∧ s.datalen = s'.datalen :=
  ⟨Buf.ext_get (h .data (by decide)),
    Len16.ext (h .datalenLo (by decide) 0 (by decide)) (h .datalenHi (by decide) 0 (by decide))⟩

theorem AgreeOn.dataOperand (h : AgreeOn [.data, .datalenLo, .datalenHi] s s') : s.dataOperand = s'.dataOperand :=
  dataOperand_congr h.data.2 fun _ _ => by rw [h.data.1]

theorem AgreeOn.stagedField (h : AgreeOn [.data, .datalenLo, .datalenHi] s s') (w : Nat) :
    s.stagedField w = s'.stagedField w :=
  stagedField_congr h.data.2 (fun _ _ => by rw [h.data.1]) w

/-- The context store as `VERIFY` reads it. -/
theorem AgreeOn.verifyOperand (h : AgreeOn (readsOf .verify) s s') : readOperand s .verify = readOperand s' .verify := by
  have hpresent : s.present = s'.present := by
    have hbyte : s.present.zeroExtend 8 = s'.present.zeroExtend 8 := h .present (by decide) 0 (by decide)
    simpa using congrArg (BitVec.setWidth 6) hbyte
  have habsent : s.absent = s'.absent := by rw [State.absent, State.absent, hpresent]
  have hkek : s.kek = s'.kek :=
    kek_congr (Buf.ext_get (h .kekh1 (by decide))) (Buf.ext_get (h .kekh2 (by decide)))
  have heipad : s.eipad = s'.eipad := Buf.ext_get (h .eipad (by decide))
  have heopad : s.eopad = s'.eopad := Buf.ext_get (h .eopad (by decide))
  have hchal : s.chal = s'.chal := Buf.ext_get (h .chal (by decide))
  have hlen : s.challen = s'.challen :=
    Len16.ext (h .challenLo (by decide) 0 (by decide)) (h .challenHi (by decide) 0 (by decide))
  have hchallenge : s.challenge = s'.challenge := by rw [State.challenge, State.challenge, hchal, hlen]
  have hexpresp : s.expresp = s'.expresp := Buf.ext_get (h .expresp (by decide))
  rw [readOperand, readOperand, habsent, hkek, heipad, heopad, hchallenge, hexpresp]

theorem readOperand_congr {i : Instr} (h : AgreeOn (readsOf i) s s') : readOperand s i = readOperand s' i := by
  cases i with
  | nop | clrctx => rfl
  | padkey | derive => exact congrArg Except.ok h.secretOperand
  | xorpads => rw [readOperand, readOperand, h.pads.1, h.pads.2]
  | hash => exact h.msgOperand
  | hmac =>
    have hpads := (h.mono (qs := [.ipad, .opad]) (by decide)).pads
    rw [readOperand, readOperand, hpads.1, hpads.2, (h.mono (by decide)).msgOperand]
  | cipher =>
    rw [readOperand, readOperand, (h.mono (by decide)).keyOperand, (h.mono (by decide)).dataOperand]
  | cipheri =>
    have hpad : s.ipad = s'.ipad := Buf.ext_get (h .ipad (by decide))
    rw [readOperand, readOperand, hpad, (h.mono (by decide)).keyOperand]
  | ciphero =>
    have hpad : s.opad = s'.opad := Buf.ext_get (h .opad (by decide))
    rw [readOperand, readOperand, hpad, (h.mono (by decide)).keyOperand]
  | setkek1 | setkek2 | seteipad | seteopad | setresp => exact h.stagedField _
  | setchal => rw [readOperand, readOperand, h.dataOperand, h.data.2]
  | verify => exact h.verifyOperand

/-- The bytes of the buffers and length registers that a command writes depend on its operand alone (R59); of `KEY` this says
what `VERIFY` writes. -/
theorem regByte_effect_congr {i : Instr} (h : AgreeOn (readsOf i) s s') {x : Operand i} (hx : readOperand s i = .ok x)
    {r : Reg} (hr : r ∈ writtenBy i ∧ r ∉ [Reg.status, Reg.present, Reg.vstate]) {j : Nat} (hj : j < r.size)
    (hkey : r = .key → j < 32) : (effect s i x).regByte r j = (effect s' i x).regByte r j := by
  have whole {n : Nat} (a b : Buf n) {f : List Byte} (hf : f.length = n) (j : Nat) :
      (a.put 0 f).get j = (b.put 0 f).get j := by rw [Buf.put_full_eq_put_full a b hf]
  cases i <;> cases r <;> try rfl
  case cipher.data =>
    have hdata := (h.mono (qs := [.data, .datalenLo, .datalenHi]) (by decide)).data.1
    change Buf.get (s.data.put 0 _) j = Buf.get (s'.data.put 0 _) j
    rw [hdata]
  case setkek1.kekh1 => exact whole _ _ (length_of_stagedField hx (by decide)) j
  case setkek2.kekh2 => exact whole _ _ (length_of_stagedField hx (by decide)) j
  case seteipad.eipad => exact whole _ _ (length_of_stagedField hx (by decide)) j
  case seteopad.eopad => exact whole _ _ (length_of_stagedField hx (by decide)) j
  case setresp.expresp => exact whole _ _ (length_of_stagedField hx (by decide)) j
  case setchal.chal =>
    have hlen := (length_of_dataOperand (dataOperand_of_setchal hx).1).2
    exact congrArg (Buf.get · j) (chal_storeChallenge_congr hlen)
  case verify.key =>
    obtain ⟨-, rfl⟩ := verify_operand hx
    exact Buf.get_put_zero_congr _ _ hj (by rw [kek_length]; exact hkey rfl)
  all_goals exact absurd hr (by decide)

/-- Of the registers of the completion record R59 lists `STATUS` only. -/
theorem eq_status_of_written_record (i : Instr) : ∀ r ∈ writtenBy i, r ∈ recordRegs → r = .status := by
  cases i <;> decide

/-- A command that writes the verdict writes it from its operand. -/
theorem verdict_effect_congr {i : Instr} (hi : Reg.status ∈ writtenBy i) (x : Operand i) :
    (effect s i x).verified = (effect s' i x).verified ∧ (effect s i x).matched = (effect s' i x).matched := by
  cases i with
  | clrctx | setkek1 | setkek2 | seteipad | seteopad | setchal | setresp | verify => exact ⟨rfl, rfl⟩
  | _ => exact absurd hi (by decide)

end

/-! The bits of `PRESENT` (R32). -/

/-- The field that a set writes, numbered as its bit of `PRESENT` (R32); 6, past the last bit, for the other commands. -/
def fieldNo : Instr → Nat
  | .setkek1 => 0
  | .setkek2 => 1
  | .seteipad => 2
  | .seteopad => 3
  | .setchal => 4
  | .setresp => 5
  | .nop | .clrctx | .padkey | .derive | .xorpads | .hash | .hmac | .cipher | .cipheri | .ciphero | .verify => 6

theorem getLsbD_or_bit (p : BitVec 6) (k : Nat) {b : Nat} (hb : b < 6) :
    (p ||| (1#6 <<< k)).getLsbD b = (p.getLsbD b || decide (k = b)) := by
  have hbit : (1#6 <<< k).getLsbD b = decide (k = b) := by
    rw [BitVec.getLsbD_shiftLeft, BitVec.getLsbD_one, Bool.eq_iff_iff]
    simp [hb]
    omega
  rw [BitVec.getLsbD_or, hbit]

/-- No command but `CLRCTX` clears a bit of `PRESENT`, and a set sets its own (R32, R111). -/
theorem present_effect {i : Instr} (hi : i ≠ .clrctx) (s : State) (x : Operand i) :
    (effect s i x).present = s.present ||| (1#6 <<< fieldNo i) := by
  cases i with
  | clrctx => exact absurd rfl hi
  | setkek1 | setkek2 | seteipad | seteopad | setchal | setresp => rfl
  | _ => exact (BitVec.or_zero (x := s.present)).symm

/-- Each bit of `PRESENT` after a command is the same from every state, or is kept from every state. -/
theorem present_effect_congr (s s' : State) {i : Instr} (x : Operand i) {b : Nat} (hb : b < 6) :
    (effect s i x).present.getLsbD b = (effect s' i x).present.getLsbD b ∨
    ((effect s i x).present.getLsbD b = s.present.getLsbD b ∧
      (effect s' i x).present.getLsbD b = s'.present.getLsbD b) := by
  by_cases hi : i = .clrctx
  · subst hi
    exact .inl rfl
  · simp only [present_effect hi, getLsbD_or_bit _ _ hb]
    by_cases hk : fieldNo i = b <;> simp [hk]

/-- Settles O46: two states that agree on the registers read hold the same operand. -/
theorem commandsReadOnlyTheirOperands : Obligations.CommandsReadOnlyTheirOperands := by
  intro i s s' h
  have hop : readOperand s i = readOperand s' i := readOperand_congr h
  obtain ⟨e, hx, hs⟩ | ⟨x, hx, hs⟩ := exec_cases i s
  · obtain ⟨e', hx', hs'⟩ | ⟨x', hx', hs'⟩ := exec_cases i s'
    · cases (hx.symm.trans hop).trans hx'
      exact ⟨_, _, hs, hs', rfl, rfl, fun he => absurd he e.code_ne_ok, fun b _ => .inr ⟨rfl, rfl⟩⟩
    · cases (hx.symm.trans hop).trans hx'
  · obtain ⟨e', hx', hs'⟩ | ⟨x', hx', hs'⟩ := exec_cases i s'
    · cases (hx.symm.trans hop).trans hx'
    · cases (hx.symm.trans hop).trans hx'
      refine ⟨_, _, hs, hs', rfl, rfl, fun _ => ⟨fun r hr hn j hj hkey => ?_, fun hi => verdict_effect_congr hi x⟩,
        fun b hb => ?_⟩
      · have hrecord : r ∉ recordRegs := fun hm => hn (by simp [eq_status_of_written_record i r hr hm])
        rw [regByte_complete _ _ _ hrecord, regByte_complete _ _ _ hrecord]
        exact regByte_effect_congr h hx ⟨hr, hn⟩ hj hkey
      · exact present_effect_congr s s' x hb

/-! Stale bytes (R269). -/

/-- A change `g` of the state that a command's operand does not see, and that its work and the completion record leave as it is,
is found again after the command. -/
theorem exec_commutes {i : Instr} {s : State} {g : State → State} (hop : readOperand (g s) i = readOperand s i)
    (hwork : ∀ x, effect (g s) i x = g (effect s i x)) (hrecord : ∀ u e m, (g u).complete e m = g (u.complete e m)) :
    ∃ t, exec i s = .next t ∧ exec i (g s) = .next (g t) := by
  rw [exec_eq_perform i (g s), hop, exec_eq_perform i s]
  cases readOperand s i with
  | error e => exact ⟨_, rfl, congrArg _ (hrecord ..)⟩
  | ok x => exact ⟨_, rfl, congrArg _ ((congrArg (State.complete · .ok 0) (hwork x)).trans (hrecord ..))⟩

/-- Replaces the three buffers that the primitives read up to a length. -/
def State.withBuffers (x : Buf 64) (m k : Buf 256) (s : State) : State := { s with secret := x, msg := m, key := k }

theorem readOperand_withBuffers {s : State} {x : Buf 64} {m k : Buf 256}
    (hx : ∀ i < s.seclen.toNat, x.get i = s.secret.get i) (hm : ∀ i < s.msglen.val, m.get i = s.msg.get i)
    (hk : ∀ i < s.keylen.val, k.get i = s.key.get i) {i : Instr} (hi : i.isPrimitive = true) :
    readOperand (s.withBuffers x m k) i = readOperand s i := by
  have hsecret : (s.withBuffers x m k).secretOperand = s.secretOperand := secretOperand_congr rfl hx
  have hmsg : (s.withBuffers x m k).msgOperand = s.msgOperand := msgOperand_congr rfl hm
  have hkey : (s.withBuffers x m k).keyOperand = s.keyOperand := keyOperand_congr rfl hk
  cases i with
  | clrctx | setkek1 | setkek2 | seteipad | seteopad | setchal | setresp | verify => cases hi
  | nop | xorpads => rfl
  | padkey | derive => exact congrArg Except.ok hsecret
  | hash => exact hmsg
  | hmac => rw [readOperand, hmsg]; rfl
  | cipher => rw [readOperand, hkey]; rfl
  | cipheri => rw [readOperand, hkey]; rfl
  | ciphero => rw [readOperand, hkey]; rfl

theorem readOperand_data {s : State} {d : Buf 256} (hd : ∀ i < s.datalen.val, d.get i = s.data.get i) {i : Instr}
    (hi : i.isSet = true ∨ i = .cipher) : readOperand { s with data := d } i = readOperand s i := by
  have hdata : { s with data := d }.dataOperand = s.dataOperand := dataOperand_congr rfl hd
  have hstaged (w : Nat) : { s with data := d }.stagedField w = s.stagedField w :=
    stagedField_congr (s := { s with data := d }) (s' := s) rfl hd w
  cases i with
  | setkek1 | setkek2 | seteipad | seteopad | setresp => exact hstaged _
  | setchal => rw [readOperand, hdata]; rfl
  | cipher => rw [readOperand, hdata]; rfl
  | _ => simp [Instr.isSet] at hi

/-- `CIPHER` enciphers the same string either way, and leaves of `DATA` what stands behind the length (R185, R269). -/
theorem exec_cipher_data {s : State} {d : Buf 256} (hd : ∀ i < s.datalen.val, d.get i = s.data.get i) :
    ∃ t c, exec .cipher s = .next t ∧ exec .cipher { s with data := d } = .next { t with data := c } ∧
      (∀ i < s.datalen.val, c.get i = t.data.get i) ∧ ∀ i < 256, s.datalen.val ≤ i → c.get i = d.get i := by
  rw [exec_eq_perform _ { s with data := d }, readOperand_data hd (.inr rfl), exec_eq_perform]
  cases hop : readOperand s .cipher with
  | error e => exact ⟨_, d, rfl, rfl, hd, fun _ _ _ => rfl⟩
  | ok x =>
    obtain ⟨hlen, hle⟩ := length_of_dataOperand (dataOperand_of_cipher hop)
    refine ⟨_, d.put 0 (sc x.1 x.2), rfl, rfl, fun i hi => ?_, fun i hi hle => ?_⟩
    · exact Buf.get_put_zero_congr _ _ (show i < 256 by omega) (by rw [sc_length]; omega)
    · rw [Buf.get_put _ _ (Nat.zero_le _), sc_length, if_neg (by omega)]

/-- Settles O47: the operands end at the lengths, and but for `CIPHER` no work touches the replaced buffers. -/
theorem staleBytesHaveNoInfluence : Obligations.StaleBytesHaveNoInfluence := by
  refine ⟨fun s x m k hx hm hk i hi => ?_, fun s d hd => ⟨fun i hi => ?_, exec_cipher_data hd⟩⟩
  · have hprimitive : i.isPrimitive = true := by revert i; decide
    refine exec_commutes (g := State.withBuffers x m k) (readOperand_withBuffers hx hm hk hprimitive) (fun y => ?_)
      fun _ _ _ => rfl
    cases i with
    | clrctx | setkek1 | setkek2 | seteipad | seteopad | setchal | setresp | verify => cases hprimitive
    | _ => rfl
  · refine exec_commutes (g := fun s => { s with data := d }) (readOperand_data hd (.inl hi)) (fun y => ?_)
      fun _ _ _ => rfl
    cases i with
    | setkek1 | setkek2 | seteipad | seteopad | setresp | setchal => rfl
    | _ => cases hi

end Sys2Proof.Machine
end

section
/-! PROOFS. The invariant of the machine: it holds at reset, and every step keeps it (R24, R31, R38, R52, R201, R212). -/

namespace Sys2Proof.Machine

/-! What the invariant speaks of: the context store, and four registers of the completion record. -/

/-- The candidate is a function of the context store (R210). -/
theorem candidate_of_sameContext {s t : State} (h : t.SameContext s) : t.candidate = s.candidate := by
  obtain ⟨-, -, -, hkekh1, hkekh2, heipad, heopad, hchal, hchallen, -⟩ := h
  rw [State.candidate, State.candidate, State.challenge, State.challenge, kek_congr hkekh1 hkekh2, heipad, heopad, hchal,
    hchallen]

/-- A change that leaves the context store keeps the invariant if it keeps what R24 and R31 say of the record. -/
theorem inv_of_sameContext {s t : State} (hs : s.Inv) (h : t.SameContext s) (hbusy : t.busy = true → t.done = false)
    (hmissing : t.missing ≠ 0 ↔ t.errcode = .missingField) : t.Inv := by
  have hcandidate := candidate_of_sameContext h
  obtain ⟨hpresent, hverified, hmatched, hkekh1, hkekh2, heipad, heopad, hchal, hchallen, hexpresp⟩ := h
  constructor
  case busy_done => exact hbusy
  case missing_iff => exact hmissing
  case matched_verified => rw [hmatched, hverified]; exact hs.matched_verified
  case verified_present => rw [hverified, hpresent]; exact hs.verified_present
  case challen_le => rw [hchallen]; exact hs.challen_le
  case chal_tail => rw [hchallen, hchal]; exact hs.chal_tail
  case absent_kekh1 => rw [hpresent, hkekh1]; exact hs.absent_kekh1
  case absent_kekh2 => rw [hpresent, hkekh2]; exact hs.absent_kekh2
  case absent_eipad => rw [hpresent, heipad]; exact hs.absent_eipad
  case absent_eopad => rw [hpresent, heopad]; exact hs.absent_eopad
  case absent_chal => rw [hpresent, hchal, hchallen]; exact hs.absent_chal
  case absent_expresp => rw [hpresent, hexpresp]; exact hs.absent_expresp
  case verdict => rw [hverified, hmatched, hcandidate, hexpresp]; exact hs.verdict

/-- Settles O9: every flag is 0 at reset, and every field of the context holds zeros. -/
theorem resetMeetsInvariant : Obligations.ResetMeetsInvariant where
  busy_done := nofun
  matched_verified := nofun
  verified_present := nofun
  challen_le := Nat.zero_le _
  chal_tail i _ := Buf.get_rep i
  missing_iff := by decide
  absent_kekh1 _ := rfl
  absent_kekh2 _ := rfl
  absent_eipad _ := rfl
  absent_eopad _ := rfl
  absent_chal _ := ⟨rfl, rfl⟩
  absent_expresp _ := rfl
  verdict := nofun

/-! The host's accesses (R60). -/

/-- The host writes no byte of the context store (R64 a). -/
theorem sameContext_writeReg (s : State) (r : Reg) (i : Nat) (v : Byte) : (s.writeReg r i v).SameContext s := by
  cases r <;> exact sameContext_refl s

/-- The inversion of a write while `BUSY` = 0 (R63): a command accepted, `WRBUSY` cleared, nothing, or a register's byte. -/
theorem idleWrite_cases (s : State) (a : Addr) (v : Byte) :
    s.idleWrite a v = s.accept v ∨ s.idleWrite a v = { s with wrbusy := false } ∨ s.idleWrite a v = s ∨
      ∃ r i, s.idleWrite a v = s.writeReg r i v := by
  unfold State.idleWrite
  split
  next => exact .inl rfl
  next =>
    split
    next => exact .inr (.inl rfl)
    next => exact .inr (.inr (.inl rfl))
  next => exact .inr (.inr (.inr ⟨_, _, rfl⟩))
  next => exact .inr (.inr (.inl rfl))

section
variable {s : State} (hs : s.Inv)
include hs

theorem inv_writeReg (r : Reg) (i : Nat) (v : Byte) : (s.writeReg r i v).Inv := by
  refine inv_of_sameContext hs (sameContext_writeReg s r i v) ?_ ?_
  · cases r <;> exact hs.busy_done
  · cases r <;> exact hs.missing_iff

theorem inv_memWrite (a : Addr) (v : Byte) : (memWrite a v s).Inv := by
  cases hb : s.busy with
  | true =>
    rw [memWrite_busy hb]
    exact inv_of_sameContext hs (sameContext_refl s) hs.busy_done hs.missing_iff
  | false =>
    rw [memWrite_idle hb]
    obtain h | h | h | ⟨r, i, h⟩ := idleWrite_cases s a v <;> rw [h]
    · exact inv_of_sameContext hs (sameContext_refl s) (fun _ => rfl) hs.missing_iff
    · exact inv_of_sameContext hs (sameContext_refl s) hs.busy_done hs.missing_iff
    · exact hs
    · exact inv_writeReg hs r i v

/-- What stands outside the block is nothing that the invariant speaks of. -/
theorem inv_outside (p : List Access) (ts : List Turn) (rs : List (Addr × Byte)) (n : Nat) :
    { s with program := p, turns := ts, reads := rs, draws := n }.Inv :=
  inv_of_sameContext hs (sameContext_refl s) hs.busy_done hs.missing_iff

theorem inv_hostAccess : s.hostAccess.Inv := by
  obtain ⟨-, h⟩ | ⟨a, rest, -, h⟩ | ⟨a, v, rest, -, h⟩ | ⟨rest, -, -, h⟩ | ⟨rest, -, -, h⟩ := hostAccess_cases s <;>
    rw [h]
  · exact hs
  · exact inv_outside hs ..
  · exact inv_memWrite (inv_outside hs rest s.turns s.reads s.draws) a v
  · exact inv_outside hs ..
  · exact inv_outside hs ..

end

/-! The six fields of the context store by their numbers (R32, R50), and what the commands do to them. -/

/-- Field `k` as a string; of the challenge `CHALLEN` and `CHAL`. -/
def State.field (s : State) : Nat → List Byte
  | 0 => s.kekh1.bytes
  | 1 => s.kekh2.bytes
  | 2 => s.eipad.bytes
  | 3 => s.eopad.bytes
  | 4 => s.challen.lo :: s.challen.hi :: s.chal.bytes
  | 5 => s.expresp.bytes
  | _ => []

theorem challenge_of_field {s t : State} (h : t.field 4 = s.field 4) : t.chal = s.chal ∧ t.challen = s.challen := by
  obtain ⟨hlo, h⟩ := List.cons.inj h
  obtain ⟨hhi, hchal⟩ := List.cons.inj h
  exact ⟨Buf.bytes_inj hchal, Len16.ext hlo hhi⟩

/-- No command but `CLRCTX` changes a field other than its own (R59, R201). -/
theorem field_effect {i : Instr} (hi : i ≠ .clrctx) (s : State) (x : Operand i) {k : Nat} (hk : fieldNo i ≠ k) :
    (effect s i x).field k = s.field k := by
  cases i <;> try exact absurd rfl hi
  all_goals rcases k with _ | _ | _ | _ | _ | _ | k <;> try rfl
  all_goals exact absurd rfl hk

/-- A primitive command changes no field and no flag (R59). -/
theorem sameContext_effect_primitive {i : Instr} (hi : i.isPrimitive = true) (s : State) (x : Operand i) :
    (effect s i x).SameContext s := by
  cases i with
  | clrctx | setkek1 | setkek2 | seteipad | seteopad | setchal | setresp | verify => cases hi
  | _ => exact sameContext_refl s

/-- A set clears the verdict (R201). -/
theorem verdict_effect_set {i : Instr} (hi : i.isSet = true) (s : State) (x : Operand i) :
    (effect s i x).verified = false ∧ (effect s i x).matched = false := by
  cases i with
  | setkek1 | setkek2 | seteipad | seteopad | setchal | setresp => exact ⟨rfl, rfl⟩
  | _ => cases hi

theorem ne_clrctx_of_isSet {i : Instr} (hi : i.isSet = true) : i ≠ .clrctx := by
  rintro rfl
  cases hi

/-- A stored challenge has zeros behind its length, which is within the bound (R38, R52, R206). -/
theorem challenge_effect_setchal {s : State} {x : Operand .setchal} (hx : readOperand s .setchal = .ok x) :
    (effect s .setchal x).challen.val ≤ 256 ∧
      ∀ i, (effect s .setchal x).challen.val ≤ i → (effect s .setchal x).chal.get i = 0 := by
  obtain ⟨hc, hlen⟩ := dataOperand_of_setchal hx
  obtain ⟨-, he⟩ | ⟨(hle : s.datalen.val ≤ 256), he⟩ := dataOperand_cases s
  · cases he.symm.trans hc
  obtain ⟨c, n⟩ := x
  cases he.symm.trans hc
  cases hlen
  refine ⟨hle, fun i (hi : s.datalen.val ≤ i) => ?_⟩
  by_cases hin : i < 256
  · exact (get_chal_storeChallenge s hle hin).trans (if_neg (by omega))
  · exact Buf.get_of_le _ (Nat.le_of_not_lt hin)

/-! The commands (R66). -/

section
variable {s : State} (hs : s.Inv)
include hs

/-- The challenge stays within its bound, with zeros behind it. -/
theorem challenge_effect_set {i : Instr} (hi : i.isSet = true) {x : Operand i} (hx : readOperand s i = .ok x) :
    (effect s i x).challen.val ≤ 256 ∧ ∀ j, (effect s i x).challen.val ≤ j → (effect s i x).chal.get j = 0 := by
  by_cases h4 : fieldNo i = 4
  · cases i with
    | setchal => exact challenge_effect_setchal hx
    | _ => exact absurd h4 (by decide)
  · obtain ⟨hchal, hchallen⟩ := challenge_of_field (field_effect (ne_clrctx_of_isSet hi) s x h4)
    rw [hchal, hchallen]
    exact ⟨hs.challen_le, hs.chal_tail⟩

/-- A set keeps the invariant: there is no verdict after it, and a field that is absent after it is another one, which it
left as it was. -/
theorem inv_effect_set {i : Instr} (hi : i.isSet = true) {x : Operand i} (hx : readOperand s i = .ok x) :
    ((effect s i x).complete .ok 0).Inv := by
  have hne := ne_clrctx_of_isSet hi
  obtain ⟨hverified, hmatched⟩ := verdict_effect_set hi s x
  obtain ⟨hlen, htail⟩ := challenge_effect_set hs hi hx
  have kept {k : Nat} (hk : k < 6) (h : (effect s i x).present.getLsbD k = false) :
      s.present.getLsbD k = false ∧ (effect s i x).field k = s.field k := by
    rw [present_effect hne, getLsbD_or_bit _ _ hk] at h
    obtain ⟨hbit, hother⟩ : s.present.getLsbD k = false ∧ fieldNo i ≠ k := by simpa using h
    exact ⟨hbit, field_effect hne s x hother⟩
  have zero {n k : Nat} {a b : Buf n} (hk : k < 6)
      (hfield : (effect s i x).field k = s.field k → a.bytes = b.bytes)
      (hzero : s.present.getLsbD k = false → b = .rep _ 0) (h : (effect s i x).present.getLsbD k = false) :
      a = .rep _ 0 :=
    (Buf.bytes_inj (hfield (kept hk h).2)).trans (hzero (kept hk h).1)
  constructor
  case busy_done => nofun
  case matched_verified => simp [hmatched]
  case verified_present => simp [hverified]
  case verdict => simp [hverified]
  case missing_iff => simp
  case challen_le => exact hlen
  case chal_tail => exact htail
  case absent_kekh1 => exact zero (k := 0) (by decide) id hs.absent_kekh1
  case absent_kekh2 => exact zero (k := 1) (by decide) id hs.absent_kekh2
  case absent_eipad => exact zero (k := 2) (by decide) id hs.absent_eipad
  case absent_eopad => exact zero (k := 3) (by decide) id hs.absent_eopad
  case absent_expresp => exact zero (k := 5) (by decide) id hs.absent_expresp
  case absent_chal =>
    intro h
    obtain ⟨hbit, hfield⟩ := kept (k := 4) (by decide) h
    obtain ⟨hchal, hchallen⟩ := challenge_of_field hfield
    rw [complete_chal, complete_challen, hchal, hchallen]
    exact hs.absent_chal hbit

/-- `VERIFY` keeps the invariant: it completes with all fields present only, and its verdict is the comparison (R210, R212). -/
theorem inv_effect_verify {x : Operand .verify} (hx : readOperand s .verify = .ok x) :
    ((effect s .verify x).complete .ok 0).Inv := by
  obtain ⟨hpresent, rfl⟩ := verify_operand hx
  exact
    { busy_done := nofun, matched_verified := fun _ => rfl, verified_present := fun _ => hpresent
      challen_le := hs.challen_le, chal_tail := hs.chal_tail, missing_iff := by simp
      absent_kekh1 := hs.absent_kekh1, absent_kekh2 := hs.absent_kekh2, absent_eipad := hs.absent_eipad
      absent_eopad := hs.absent_eopad, absent_chal := hs.absent_chal, absent_expresp := hs.absent_expresp
      verdict := fun _ => rfl }

/-- The work of a command that takes its operand keeps the invariant, by the command's kind. -/
theorem inv_effect {i : Instr} {x : Operand i} (hx : readOperand s i = .ok x) :
    ((effect s i x).complete .ok 0).Inv := by
  obtain hi | rfl | hi | rfl := instr_kind i
  · exact inv_of_sameContext hs (sameContext_effect_primitive hi s x) nofun (by simp)
  · have hcontext : s.clearContext.SameContext State.reset := sameContext_refl State.reset
    exact inv_of_sameContext resetMeetsInvariant hcontext nofun (by simp)
  · exact inv_effect_set hs hi hx
  · exact inv_effect_verify hs hx

end

/-- `MissingField` is the error of `VERIFY` with a field absent only (R232). -/
theorem errorOf_ne_missingField {s : State} (h : s.present = allPresent) (i : Instr) : errorOf i s ≠ .missingField := by
  cases i with
  | nop | clrctx | padkey | derive | xorpads => nofun
  | verify =>
    rw [errorOf, if_pos h]
    nofun
  | _ =>
    rw [errorOf]
    split_ifs <;> nofun

/-- `MISSING` is not zero exactly after `MissingField` (R31). -/
theorem missing_of_exec {i : Instr} {s t : State} (h : exec i s = .next t) : t.missing ≠ 0 ↔ t.errcode = .missingField := by
  obtain ⟨u, hu, -, -, hcode, hmissing⟩ := (exec_endsWith i s).exists_next
  cases hu.symm.trans h
  rw [hmissing, ite_ne_right_iff]
  refine ⟨And.left, fun he => ⟨he, fun hzero => errorOf_ne_missingField ?_ i (hcode.symm.trans he)⟩⟩
  rwa [← absent_eq_not_present, absent_eq_zero_iff] at hzero

/-- Every command keeps the invariant. -/
theorem inv_exec {s : State} (hs : s.Inv) {i : Instr} {t : State} (h : exec i s = .next t) : t.Inv := by
  obtain ⟨e, -, hexec⟩ | ⟨x, hx, hexec⟩ := exec_cases i s <;> cases hexec.symm.trans h
  · exact inv_of_sameContext hs (sameContext_refl s) nofun (missing_of_exec h)
  · exact inv_effect hs hx

theorem inv_engineStep {s : State} (hs : s.Inv) {t : State} (h : engineStep s = .next t) : t.Inv := by
  obtain ⟨i, -, hstep⟩ | ⟨c, -, hstep⟩ := engineStep_cases s
  · exact inv_exec hs (hstep.symm.trans h)
  · rw [raise_eq_next (hstep.symm.trans h)]
    exact inv_of_sameContext hs (sameContext_refl s) nofun (by simp [CmdError.code, CmdError.mask])

/-- Settles O10: each mover keeps the invariant, and the turn it uses up is no register of the block. -/
theorem stepKeepsInvariant : Obligations.StepKeepsInvariant := by
  intro s t hs h
  have hpop : s.popTurn.Inv := inv_outside hs s.program s.turns.tail s.reads s.draws
  obtain ⟨-, rfl⟩ | ⟨-, -, hengine⟩ | ⟨-, -, rfl⟩ | ⟨-, rfl⟩ := step_cases h
  · exact inv_hostAccess hpop
  · exact inv_engineStep hpop hengine
  · exact hpop
  · exact inv_outside resetMeetsInvariant ..

/-! A `VERIFY` with a field absent (R212). -/

/-- Settles O35: a verdict needs all six fields, and `MissingField` says that one is absent. -/
theorem missingFieldLeavesUnverified : Obligations.MissingFieldLeavesUnverified := by
  intro s hs
  have hunverified (hp : s.present ≠ allPresent) : s.verified = false :=
    Bool.eq_false_iff.mpr fun hv => hp (hs.verified_present hv)
  refine ⟨fun t h he => ?_, hs.verified_present, fun (hp : s.present ≠ allPresent) => ?_⟩
  · obtain ⟨u, hu, hcode⟩ := errorCauses.2.1 .verify s
    cases hu.symm.trans h
    have hp : s.present ≠ allPresent := fun hp => errorOf_ne_missingField hp _ (hcode.symm.trans he)
    rw [raise_eq_next ((exec_verify_of_absent hp).symm.trans h)]
    exact ⟨hunverified hp, hunverified hp⟩
  · rw [vstate_of_not_verified (hunverified hp), if_neg hp]
    split_ifs <;> simp

end Sys2Proof.Machine
end

section
/-! PROOFS. The pads and the stream cipher together (41_padgen.md, 44_cipher.md): what cancels between two pads (R125, R189),
the keystream of a key (R182), and a key written several times (R190). -/

namespace Sys2Proof.Machine

/-! The pads of one secret (R125, R189). -/

/-- The inner pad reveals the padded key (R125). -/
theorem derivePads_fst_xor_ibyte (s : List Byte) : (derivePads s).1.xor (.rep _ 0x36) = padKey s := by
  apply Buf.ext_get
  intro i hi
  rw [Buf.get_xor, get_derivePads_fst s hi, Buf.get_rep_lt _ hi, BitVec.xor_assoc, BitVec.xor_self, BitVec.xor_zero]

/-- Two pads of one secret enciphered under one key differ as the plain ones do (R189). -/
theorem scPad_derivePads_xor (k : CipherKey) (s : List Byte) :
    (scPad k (derivePads s).1).xor (scPad k (derivePads s).2) = .rep _ 0x6A := by
  rw [scPad_xor_scPad, derivePads_xor]

/-- One link of a chain of commands whose end is known. -/
theorem runCommands_link {i : Instr} {is : List Instr} {s t u : State} (h : exec i s = .next t)
    (hrest : runCommands is t = .next u) : runCommands (i :: is) s = .next u :=
  (runCommands_cons h is).trans hrest

/-- Settles O16: `XORPADS` finds the two pads of `DERIVE`, plain or both enciphered under the key. -/
theorem padPairCancels : Obligations.PadPairCancels := by
  refine ⟨fun s => ⟨derivePads_xor s, derivePads_fst_xor_ibyte s⟩, fun s => ⟨?_, fun h0 h => ?_⟩⟩
  · exact ⟨_, runCommands_link (exec_derive s) <| runCommands_link (exec_xorpads _) rfl, derivePads_xor s.secretOperand⟩
  · have hk : s.keyOperand = .ok (keyOf s.key s.keylen.val h0 h) := keyOperand_ok h0 h
    exact ⟨_, runCommands_link (exec_derive s) <| runCommands_link (exec_cipheri_of_keyOperand hk) <|
      runCommands_link (exec_ciphero_of_keyOperand hk) <| runCommands_link (exec_xorpads _) rfl,
      scPad_derivePads_xor _ s.secretOperand⟩

/-! The keystream (R182). -/

/-- Two strings of one length enciphered under one key differ as the plain strings do (R182). -/
theorem xorBytes_sc_sc (k : CipherKey) {a b : List Byte} (h : a.length = b.length) :
    xorBytes (sc k a) (sc k b) = xorBytes a b := by
  apply List.ext_getElem
  · simp
  · intro n h1 h2
    simp only [xorBytes_length] at h2
    have ha : n < a.length := by omega
    have hb : n < b.length := by omega
    simp only [xorBytes, List.getElem_zipWith]
    rw [← List.getD_eq_getElem _ 0, ← List.getD_eq_getElem _ 0, sc_getD k a ha, sc_getD k b hb,
      BitVec.xor_comm _ (genByte _), BitVec.xor_comm _ (genByte _), xor_xor_xor_cancel_left, List.getD_eq_getElem _ _ ha,
      List.getD_eq_getElem _ _ hb]

/-- One step of generation as numbers: with `i` advanced, `j` grows by `S[i]`, the two entries are swapped, and the keystream
byte is `S[S[i] + S[j]]` after the swap (R182). -/
theorem genRun_step (S : Perm) (n : Nat) : ∃ i, i = (n + 1) % 256 ∧
    (genRun S (n + 1)).2.1.toNat = ((genRun S n).2.1.toNat + permNat (genRun S n).2.2 i) % 256 ∧
    Swapped (permNat (genRun S n).2.2) (permNat (genRun S (n + 1)).2.2) i (genRun S (n + 1)).2.1.toNat ∧
    (genByte (genRun S (n + 1))).toNat = permNat (genRun S (n + 1)).2.2
      ((permNat (genRun S (n + 1)).2.2 i + permNat (genRun S (n + 1)).2.2 (genRun S (n + 1)).2.1.toNat) % 256) := by
  refine ⟨(genRun S (n + 1)).1.toNat, by rw [genRun_fst, BitVec.toNat_ofNat], ?_, permNat_permSwap _ _ _, ?_⟩
  · rw [permNat_toNat, ← BitVec.toNat_add]
    rfl
  · rw [permNat_toNat, permNat_toNat, ← BitVec.toNat_add, permNat_toNat, genByte]

/-- Settles O24: `S`, `j` and the bytes are those of the model's own run of generation, whatever the data is. -/
theorem keystreamCancels : Obligations.KeystreamCancels := by
  refine ⟨fun k => ?_, fun k a b h => xorBytes_sc_sc k h, scPad_derivePads_xor⟩
  refine ⟨fun n => permNat (genRun (keySchedule k) n).2.2, fun n => (genRun (keySchedule k) n).2.1.toNat,
    fun n => (genByte (genRun (keySchedule k) (n + 1))).toNat, fun x => permNat_toNat _ x, rfl,
    genRun_step (keySchedule k), fun d => ⟨sc_length k d, fun n hn => ?_⟩⟩
  rw [sc_getD k d hn, BitVec.toNat_xor]

/-! A key written several times (R190). -/

/-- A string written `r` times in a row holds the string's bytes cyclically. -/
theorem getD_flatten_replicate (l : List Byte) {r i : Nat} (h : i < r * l.length) :
    (List.replicate r l).flatten.getD i 0 = l.getD (i % l.length) 0 := by
  induction r generalizing i with
  | zero => omega
  | succ r ih =>
    rw [List.replicate_succ, List.flatten_cons]
    rcases Nat.lt_or_ge i l.length with hi | hi
    · rw [List.getD_append _ _ _ _ hi, Nat.mod_eq_of_lt hi]
    · rw [Nat.succ_mul] at h
      rw [List.getD_append_right _ _ _ _ hi, ih (by omega), Nat.mod_eq_sub_mod hi]

/-- The key schedule uses a key's bytes cyclically, so it sees no difference (R190). -/
theorem at_of_replicate {k k' : CipherKey} {r : Nat} (h : k'.bytes = (List.replicate r k.bytes).flatten) (i : Nat) :
    k'.at i = k.at i := by
  have hlen : k'.bytes.length = r * k.bytes.length := by simp [h]
  have hlt : i % (r * k.bytes.length) < r * k.bytes.length := Nat.mod_lt _ (hlen ▸ k'.pos)
  rw [keyAt_eq_getD, keyAt_eq_getD, hlen, h, getD_flatten_replicate _ hlt, Nat.mod_mul_left_mod]

/-- The cipher depends on the key's bytes as the key schedule uses them (R181, R183). -/
theorem sc_of_at {k k' : CipherKey} (h : ∀ i, k'.at i = k.at i) (d : List Byte) : sc k' d = sc k d := by
  have hstep : keyStep k' = keyStep k := by
    funext js i
    rw [keyStep, keyStep, h]
  rw [sc, sc, keySchedule, keySchedule, hstep]

/-- Settles O25: both keys give the key schedule the same bytes. -/
theorem repeatedKeyActsAlike : Obligations.RepeatedKeyActsAlike := fun _ _ _ d h => sc_of_at (at_of_replicate h) d

end Sys2Proof.Machine
end

section
/-! PROOFS. The two HMAC paths block by block (43_hmac.md, R170): the blocks of a padded message that starts with a pad. -/

namespace Sys2Proof.Machine

/-! Cutting a string into blocks (R147). -/

/-- A string's first 64 bytes are its first block. -/
theorem shaBlocks_append {a : List Byte} (h : a.length = 64) (b : List Byte) : shaBlocks (a ++ b) = a :: shaBlocks b := by
  have hcount : (a ++ b).length / 64 = b.length / 64 + 1 := by
    rw [List.length_append, h]
    omega
  have hfirst : ((a ++ b).drop (64 * 0)).take 64 = a := by simp [← h]
  have hnext (i : Nat) : ((a ++ b).drop (64 * (i + 1))).take 64 = (b.drop (64 * i)).take 64 := by
    rw [show 64 * (i + 1) = a.length + 64 * i by omega, List.drop_length_add_append]
  rw [shaBlocks, shaBlocks, hcount, List.range_succ_eq_map, List.map_cons, List.map_map, hfirst]
  exact congrArg _ (List.map_congr_left fun i _ => hnext i)

/-- The blocks of a whole number of them, joined, are the string. -/
theorem flatten_shaBlocks {n : Nat} {p : List Byte} (h : p.length = 64 * n) : (shaBlocks p).flatten = p := by
  induction n generalizing p with
  | zero =>
    rw [List.eq_nil_of_length_eq_zero h]
    rfl
  | succ n ih =>
    rw [← List.take_append_drop 64 p, shaBlocks_append (by simp; omega), List.flatten_cons, ih (by simp; omega)]

/-! The blocks behind a pad. -/

/-- What the padding makes of a message behind 64 bytes (R143). -/
def padBehindBlock (m : List Byte) : List Byte :=
  m ++ [0x80] ++ List.replicate (padZeros (64 + m.length)) 0 ++ be64 (8 * (64 + m.length))

theorem shaPad_pad_append (pd : Buf 64) (m : List Byte) : shaPad (pd.bytes ++ m) = pd.bytes ++ padBehindBlock m := by
  simp [shaPad, padBehindBlock]

theorem padBehindBlock_length (m : List Byte) : (padBehindBlock m).length = 64 * ((m.length + 8) / 64 + 1) := by
  have h := shaPad_length ((Buf.rep 64 0).bytes ++ m)
  rw [shaPad_pad_append, List.length_append, List.length_append, Buf.bytes_length] at h
  omega

theorem padZeros_lt (L : Nat) : padZeros L < 64 := by
  rw [padZeros]
  omega

/-- Settles O20: the pad is the first block of either path, and an inner digest leaves room for one more. -/
theorem hmacPathBlocks : Obligations.HmacPathBlocks := by
  intro pd m inner
  constructor
  · refine ⟨shaBlocks (padBehindBlock m), ?_, ?_, _, padZeros_lt (64 + m.length), flatten_shaBlocks (padBehindBlock_length m)⟩
    · rw [shaPad_pad_append, shaBlocks_append pd.bytes_length]
    · simp [shaBlocks, padBehindBlock_length]
  · have hlast : padBehindBlock inner.bytes =
        inner.bytes ++ [0x80] ++ List.replicate 23 0 ++ [0, 0, 0, 0, 0, 0, 3, 0] := by
      rw [padBehindBlock, inner.bytes_length]
      rfl
    have hone := shaBlocks_append (a := padBehindBlock inner.bytes) (by rw [padBehindBlock_length, inner.bytes_length]) []
    rw [List.append_nil] at hone
    rw [shaPad_pad_append, shaBlocks_append pd.bytes_length, hone, hlast]
    rfl

end Sys2Proof.Machine
end

section
/-! PROOFS. What `VERIFY` computes (45_validator.md section 3): again after a `VERIFY` (R213), for a context that a builder made
(R214), and by primitive commands (R215). -/

namespace Sys2Proof.Machine

/-! Operands of the two sides. -/

theorem CipherKey.ext {k k' : CipherKey} (h : k.bytes = k'.bytes) : k = k' := by
  cases k; cases k'; cases h; rfl

theorem Len16.val_inj {x y : Len16} (h : x.val = y.val) : x = y := by
  have hx := x.lo.isLt
  have hy := y.lo.isLt
  simp only [Len16.val] at h
  exact Len16.ext (BitVec.eq_of_toNat_eq (by omega)) (BitVec.eq_of_toNat_eq (by omega))

/-- The two halves of a 32-byte key are a KEK of the same bytes (R210). -/
theorem kek_bytes_eq_slice {v : State} {key : Buf 256}
    (h : ∀ i < 16, v.kekh1.get i = key.get i ∧ v.kekh2.get i = key.get (16 + i)) : v.kek.bytes = key.slice 0 32 := by
  apply List.ext_getElem
  · rw [kek_length, Buf.slice_length]
    rfl
  · intro i h1 h2
    rw [kek_length] at h1
    rw [← List.getD_eq_getElem _ 0, ← List.getD_eq_getElem _ 0, getD_kek_bytes, Buf.slice_getD _ (by omega), Nat.zero_add]
    split
    next hi => exact (h i hi).1
    next hi =>
      rw [(h (i - 16) (by omega)).2]
      congr 1
      omega

/-- A state whose 32-byte key is that of the halves enciphers under the KEK. -/
theorem keyOperand_eq_kek {p v : State} (hlen : p.keylen.val = 32)
    (h : ∀ i < 16, v.kekh1.get i = p.key.get i ∧ v.kekh2.get i = p.key.get (16 + i)) : p.keyOperand = .ok v.kek := by
  rw [keyOperand_ok (by omega) (by rw [hlen]; decide)]
  refine congrArg Except.ok (CipherKey.ext ?_)
  rw [kek_bytes_eq_slice h]
  exact congrArg (p.key.slice 0) hlen

/-- A message that is the stored challenge. -/
theorem msgOperand_eq_challenge {p v : State} (hlen : v.challen = p.msglen) (hle : p.msglen.val ≤ 256)
    (h : ∀ i < p.msglen.val, v.chal.get i = p.msg.get i) : p.msgOperand = .ok v.challenge := by
  rw [msgOperand_ok hle, State.challenge, hlen, Buf.slice_congr h]

theorem exec_hmac_of_msgOperand {s : State} {m : List Byte} (hm : s.msgOperand = .ok m) :
    exec .hmac s = .next
      ({ s with inner := (hmacF s.ipad s.opad m).1, digest := (hmacF s.ipad s.opad m).2 }.complete .ok 0) := by
  rw [exec_eq_perform, readOperand, hm]
  rfl

/-! The state after a `VERIFY` that completes (R210). -/

/-- All that `VERIFY` writes, register by register, and the completion record. -/
def State.afterVerify (s : State) : State :=
  { s with
    key := s.key.put 0 s.kek.bytes
    keylen := ⟨0x20, 0x00⟩
    ipad := scPad s.kek s.eipad
    opad := scPad s.kek s.eopad
    inner := (hmacF (scPad s.kek s.eipad) (scPad s.kek s.eopad) s.challenge).1
    digest := s.candidate
    kpdiag := (scPad s.kek s.eipad).xor (scPad s.kek s.eopad)
    verified := true
    matched := s.candidate == s.expresp
    errcode := .ok
    missing := 0
    busy := false
    done := true }

theorem exec_verify_next {s : State} (h : s.present = allPresent) : exec .verify s = .next s.afterVerify := by
  rw [exec_eq_perform, readOperand, if_neg (not_not.mpr ((absent_eq_zero_iff s).mpr h))]
  rfl

section
variable (s : State)

theorem afterVerify_ipad : s.afterVerify.ipad = scPad s.kek s.eipad := rfl
theorem afterVerify_opad : s.afterVerify.opad = scPad s.kek s.eopad := rfl
theorem afterVerify_hashes :
    (s.afterVerify.inner, s.afterVerify.digest) = hmacF s.afterVerify.ipad s.afterVerify.opad s.challenge := rfl
theorem afterVerify_kpdiag : s.afterVerify.kpdiag = s.afterVerify.ipad.xor s.afterVerify.opad := rfl

theorem afterVerify_key {i : Nat} (hi : i < 32) :
    s.afterVerify.key.get i = if i < 16 then s.kekh1.get i else s.kekh2.get (i - 16) := by
  refine (get_key_loadKek s (i := i) (by omega)).trans ?_
  rw [if_pos hi]

end

/-- A second `VERIFY` finds the context as it was and writes the same again, the KEK over itself (R213). -/
theorem afterVerify_afterVerify (s : State) : s.afterVerify.afterVerify = s.afterVerify := by
  have hkey : (s.key.put 0 s.kek.bytes).put 0 s.kek.bytes = s.key.put 0 s.kek.bytes := Buf.put_zero_put_zero _ rfl
  have hkek : s.afterVerify.kek = s.kek := rfl
  have heipad : s.afterVerify.eipad = s.eipad := rfl
  have heopad : s.afterVerify.eopad = s.eopad := rfl
  have hchallenge : s.afterVerify.challenge = s.challenge := rfl
  have hexpresp : s.afterVerify.expresp = s.expresp := rfl
  have hcandidate : s.afterVerify.candidate = s.candidate := by
    rw [State.candidate, State.candidate, hkek, heipad, heopad, hchallenge]
  have hkeyAfter : s.afterVerify.key = s.key.put 0 s.kek.bytes := rfl
  rw [State.afterVerify.eq_def s.afterVerify, hkek, heipad, heopad, hchallenge, hexpresp, hcandidate, hkeyAfter, hkey]
  rfl

/-- The two states agree on what `VERIFY` writes: the context store, `KEY[0..32)`, `KEYLEN`, the pads, the digests and the
diagnostic. -/
def SameVerified (w t : State) : Prop :=
  w.SameContext t ∧ w.keylen = t.keylen ∧ w.ipad = t.ipad ∧ w.opad = t.opad ∧ w.inner = t.inner ∧
    w.digest = t.digest ∧ w.kpdiag = t.kpdiag ∧ ∀ i < 32, w.key.get i = t.key.get i

/-- What `VERIFY` writes is a function of the context store (R213). -/
theorem sameVerified_of_sameContext {t u : State} (h : u.SameContext t) : SameVerified u.afterVerify t.afterVerify := by
  have hcandidate := candidate_of_sameContext h
  obtain ⟨hpresent, -, -, hkekh1, hkekh2, heipad, heopad, hchal, hchallen, hexpresp⟩ := h
  have hchallenge : u.challenge = t.challenge := by rw [State.challenge, State.challenge, hchal, hchallen]
  have hipad : u.afterVerify.ipad = t.afterVerify.ipad := by
    rw [afterVerify_ipad, afterVerify_ipad, kek_congr hkekh1 hkekh2, heipad]
  have hopad : u.afterVerify.opad = t.afterVerify.opad := by
    rw [afterVerify_opad, afterVerify_opad, kek_congr hkekh1 hkekh2, heopad]
  have hhashes := afterVerify_hashes u
  rw [hipad, hopad, hchallenge, ← afterVerify_hashes, Prod.mk.injEq] at hhashes
  have hmatched : (u.candidate == u.expresp) = (t.candidate == t.expresp) := by rw [hcandidate, hexpresp]
  refine ⟨⟨hpresent, rfl, hmatched, hkekh1, hkekh2, heipad, heopad, hchal, hchallen, hexpresp⟩, rfl, hipad, hopad, hhashes.1,
    hhashes.2, ?_, fun i hi => ?_⟩
  · rw [afterVerify_kpdiag, afterVerify_kpdiag, hipad, hopad]
  · rw [afterVerify_key u hi, afterVerify_key t hi, hkekh1, hkekh2]

theorem sameContext_symm {s t : State} (h : t.SameContext s) : s.SameContext t := by
  obtain ⟨h0, h1, h2, h3, h4, h5, h6, h7, h8, h9⟩ := h
  exact ⟨h0.symm, h1.symm, h2.symm, h3.symm, h4.symm, h5.symm, h6.symm, h7.symm, h8.symm, h9.symm⟩

theorem sameContext_trans {s t u : State} (h : u.SameContext t) (h' : t.SameContext s) : u.SameContext s := by
  obtain ⟨h0, h1, h2, h3, h4, h5, h6, h7, h8, h9⟩ := h
  obtain ⟨k0, k1, k2, k3, k4, k5, k6, k7, k8, k9⟩ := h'
  exact ⟨h0.trans k0, h1.trans k1, h2.trans k2, h3.trans k3, h4.trans k4, h5.trans k5, h6.trans k6, h7.trans k7,
    h8.trans k8, h9.trans k9⟩

/-- Primitive commands leave the context store (R59). -/
theorem runCommands_primitive (ps : List Instr) (s : State) (h : ∀ i ∈ ps, i.isPrimitive = true) :
    ∃ u, runCommands ps s = .next u ∧ u.SameContext s := by
  induction ps generalizing s with
  | nil => exact ⟨s, rfl, sameContext_refl s⟩
  | cons i is ih =>
    obtain ⟨hi, his⟩ := List.forall_mem_cons.mp h
    obtain ⟨t, ht, htcontext⟩ : ∃ t, exec i s = .next t ∧ t.SameContext s := by
      obtain ⟨e, he⟩ | ⟨u, hu, hcontext⟩ := exec_primitive_cases hi s
      · exact ⟨_, he, sameContext_refl s⟩
      · exact ⟨_, hu, hcontext⟩
    obtain ⟨u, hu, hucontext⟩ := ih t his
    exact ⟨u, runCommands_link ht hu, sameContext_trans hucontext htcontext⟩

/-- With all fields present a second `VERIFY` changes nothing (R213). -/
theorem exec_verify_afterVerify {s : State} (hp : s.present = allPresent) :
    exec .verify s.afterVerify = .next s.afterVerify := by
  have hagain : exec .verify s.afterVerify = .next s.afterVerify.afterVerify := exec_verify_next (s := s.afterVerify) hp
  rwa [afterVerify_afterVerify] at hagain

/-- With a field absent a second `VERIFY` records the same mask (R210). -/
theorem exec_verify_complete_absent {s : State} (hp : s.present ≠ allPresent) :
    exec .verify (s.complete .missingField s.absent) = .next (s.complete .missingField s.absent) :=
  exec_verify_of_absent (s := s.complete .missingField s.absent) hp

/-- Settles O36: a second `VERIFY` finds the same context, and primitive commands between leave it. -/
theorem verifyIsRepeatable : Obligations.VerifyIsRepeatable := by
  refine ⟨fun s => ?_, fun s ps (hp : s.present = allPresent) hps => ?_⟩
  · by_cases hp : s.present = allPresent
    · exact ⟨_, exec_verify_next hp, exec_verify_afterVerify hp⟩
    · exact ⟨_, exec_verify_of_absent hp, exec_verify_complete_absent hp⟩
  · obtain ⟨u, hu, hcontext⟩ := runCommands_primitive ps s.afterVerify hps
    refine ⟨_, u, _, exec_verify_next hp, hu, exec_verify_next (hcontext.1.trans hp), ?_⟩
    have hsame := sameVerified_of_sameContext hcontext
    rwa [afterVerify_afterVerify] at hsame

/-! The round trips (R214). -/

/-- A context that holds two pads enciphered under its KEK and their digest over its challenge verifies, and the pads come out
plain. -/
theorem afterVerify_of_roundTrip {s : State} {ip op : Buf 64} (hp : s.present = allPresent)
    (hi : s.eipad = scPad s.kek ip) (ho : s.eopad = scPad s.kek op) (hr : s.expresp = (hmacF ip op s.challenge).2) :
    s.afterVerify.vstate = .verifiedSuccess ∧ s.afterVerify.ipad = ip ∧ s.afterVerify.opad = op := by
  have hip : scPad s.kek s.eipad = ip := by rw [hi, scPad_scPad]
  have hop : scPad s.kek s.eopad = op := by rw [ho, scPad_scPad]
  obtain ⟨-, -, hverdict⟩ := verdict_of_exec_verify (exec_verify_next hp) hp
  refine ⟨?_, hip, hop⟩
  rw [hverdict, State.candidate, hip, hop, hr, beq_self_eq_true, if_pos rfl]

/-- Settles O37: the fields are the pads enciphered, so `VERIFY` deciphers them and computes the expected response. -/
theorem roundTripVerifies : Obligations.RoundTripVerifies := by
  intro s ip op hp hle hi ho hr
  rw [← Buf.slice_eq_map _ hle] at hr
  exact ⟨_, exec_verify_next hp, afterVerify_of_roundTrip hp (Buf.bytes_inj (by rw [hi, scPad_bytes]))
    (Buf.bytes_inj (by rw [ho, scPad_bytes])) hr⟩

/-- What the builder's commands leave: the pads of the secret enciphered under the key, and the digest over the plain pads
and the message (R124, R172, R186, R187). -/
theorem builder_run {b : State} {k : CipherKey} {m : List Byte} (hk : b.keyOperand = .ok k) (hm : b.msgOperand = .ok m) :
    ∃ e, runCommands [.derive, .hmac, .cipheri, .ciphero] b = .next e ∧
      e.ipad = scPad k (derivePads b.secretOperand).1 ∧ e.opad = scPad k (derivePads b.secretOperand).2 ∧
      e.digest = (hmacF (derivePads b.secretOperand).1 (derivePads b.secretOperand).2 m).2 :=
  ⟨_, runCommands_link (exec_derive b) <| runCommands_link (exec_hmac_of_msgOperand hm) <|
    runCommands_link (exec_cipheri_of_keyOperand hk) <| runCommands_link (exec_ciphero_of_keyOperand hk) rfl, rfl, rfl, rfl⟩

/-- Settles O38: the validator's KEK is the builder's key and its challenge the message, so its context is a round trip of the
secret's pads. -/
theorem bundleRoundTrip : Obligations.BundleRoundTrip := by
  intro b hkeylen hmsglen
  obtain ⟨k, hk⟩ : ∃ k, b.keyOperand = .ok k := ⟨_, keyOperand_ok (by omega) (by rw [hkeylen]; decide)⟩
  obtain ⟨e, hrun, hipad, hopad, hdigest⟩ := builder_run hk (msgOperand_ok hmsglen)
  refine ⟨e, hrun, fun v hp hkek hi ho hlen hmsg hr => ?_⟩
  have hk' : k = v.kek := Except.ok.inj (hk.symm.trans (keyOperand_eq_kek hkeylen hkek))
  have hm : b.msg.slice 0 b.msglen.val = v.challenge :=
    Except.ok.inj ((msgOperand_ok hmsglen).symm.trans (msgOperand_eq_challenge hlen hmsglen hmsg))
  rw [hipad, hk'] at hi
  rw [hopad, hk'] at ho
  rw [hdigest, hm] at hr
  obtain ⟨hstate, hip, hop⟩ := afterVerify_of_roundTrip hp hi ho hr
  refine ⟨_, exec_verify_next hp, hstate, ?_⟩
  rw [afterVerify_kpdiag, hip, hop, derivePads_xor]

/-! `VERIFY` by primitive commands (R215). -/

/-- What the primitive commands leave (R126, R172, R186, R187). -/
theorem primitives_run {p : State} {k : CipherKey} {m : List Byte} (hk : p.keyOperand = .ok k) (hm : p.msgOperand = .ok m) :
    ∃ q, runCommands [.cipheri, .ciphero, .hmac, .xorpads] p = .next q ∧ q.errcode = .ok ∧ q.key = p.key ∧
      q.keylen = p.keylen ∧ q.ipad = scPad k p.ipad ∧ q.opad = scPad k p.opad ∧
      (q.inner, q.digest) = hmacF (scPad k p.ipad) (scPad k p.opad) m ∧
      q.kpdiag = (scPad k p.ipad).xor (scPad k p.opad) ∧ q.SameContext p :=
  ⟨_, runCommands_link (exec_cipheri_of_keyOperand hk) <| runCommands_link (exec_ciphero_of_keyOperand hk) <|
    runCommands_link (exec_hmac_of_msgOperand hm) <| runCommands_link (exec_xorpads _) rfl,
    rfl, rfl, rfl, rfl, rfl, rfl, rfl, sameContext_refl p⟩

/-- Settles O39: the key is the KEK and the message the challenge, so each command computes what its line of `VERIFY` does. -/
theorem verifyByPrimitives : Obligations.VerifyByPrimitives := by
  intro s p hp hle hkey hkeylen hi ho hmsglen hmsg
  have hk : p.keyOperand = .ok s.kek := keyOperand_eq_kek hkeylen fun i hi => ⟨(hkey i hi).1.symm, (hkey i hi).2.symm⟩
  have hm : p.msgOperand = .ok s.challenge :=
    msgOperand_eq_challenge hmsglen.symm (by rwa [hmsglen]) fun i hi => (hmsg i (by rwa [← hmsglen])).symm
  have hlen : p.keylen = ⟨0x20, 0x00⟩ := Len16.val_inj (hkeylen.trans (by decide))
  obtain ⟨q, hrun, hok, hqkey, hqkeylen, hipad, hopad, hhashes, hkpdiag, hcontext⟩ := primitives_run hk hm
  rw [hi, ← afterVerify_ipad] at hipad hhashes hkpdiag
  rw [ho, ← afterVerify_opad] at hopad hhashes hkpdiag
  rw [← afterVerify_hashes, Prod.mk.injEq] at hhashes
  refine ⟨_, q, exec_verify_next hp, hrun, hok, fun i hi => ?_, hqkeylen.trans hlen, hipad, hopad,
    hhashes.1, hhashes.2, hkpdiag, hcontext⟩
  rw [hqkey, afterVerify_key s hi]
  split
  next h => exact (hkey i h).1
  next h =>
    rw [← (hkey (i - 16) (by omega)).2]
    congr 1
    omega

end Sys2Proof.Machine
end

section
/-! PROOFS. The six sets among each other (45_validator.md, R208): what one of them does to the flags and the fields. -/

namespace Sys2Proof.Machine

theorem field_of_sameContext {s t : State} (h : t.SameContext s) (k : Nat) : t.field k = s.field k := by
  obtain ⟨-, -, -, hkekh1, hkekh2, heipad, heopad, hchal, hchallen, hexpresp⟩ := h
  match k with
  | 0 | 1 | 2 | 3 | 4 | 5 | k + 6 => simp only [State.field, hkekh1, hkekh2, heipad, heopad, hchal, hchallen, hexpresp]

/-- The context store is its flags and its six fields (R50). -/
theorem sameContext_of_fields {s t : State} (hpresent : t.present = s.present) (hverified : t.verified = s.verified)
    (hmatched : t.matched = s.matched) (h : ∀ k, t.field k = s.field k) : t.SameContext s := by
  obtain ⟨hchal, hchallen⟩ := challenge_of_field (h 4)
  exact ⟨hpresent, hverified, hmatched, Buf.bytes_inj (h 0), Buf.bytes_inj (h 1), Buf.bytes_inj (h 2), Buf.bytes_inj (h 3),
    hchal, hchallen, Buf.bytes_inj (h 5)⟩

/-! One set (R201). -/

/-- From the context of `s` to that of `t` field `k` takes the value `v`, its flag is set and the verdict cleared (R201). -/
structure SetsField (k : Nat) (v : List Byte) (s t : State) : Prop where
  present : t.present = s.present ||| (1#6 <<< k)
  verified : t.verified = false
  matched : t.matched = false
  own : t.field k = v
  other : ∀ n, k ≠ n → t.field n = s.field n

section
variable {s t a b a' b' : State} {k l : Nat} {v w : List Byte}

/-- Where both ends of a set are known, so is everything. -/
theorem SetsField.congr (h : SetsField k v s t) (h' : SetsField k v a b) (hs : s.SameContext a) : t.SameContext b := by
  refine sameContext_of_fields ?_ (h.verified.trans h'.verified.symm) (h.matched.trans h'.matched.symm) fun n => ?_
  · rw [h.present, h'.present, hs.1]
  · by_cases hn : k = n
    · subst hn
      exact h.own.trans h'.own.symm
    · rw [h.other n hn, h'.other n hn, field_of_sameContext hs]

/-- A second set of a field hides the first. -/
theorem SetsField.trans (h : SetsField k v s a) (h' : SetsField k w a b) : SetsField k w s b where
  present := by rw [h'.present, h.present, BitVec.or_assoc, BitVec.or_self]
  verified := h'.verified
  matched := h'.matched
  own := h'.own
  other n hn := (h'.other n hn).trans (h.other n hn)

/-- Sets of two fields may be exchanged. -/
theorem SetsField.comm (hkl : k ≠ l) (ha : SetsField k v s a) (hb : SetsField l w a b) (ha' : SetsField l w s a')
    (hb' : SetsField k v a' b') : b.SameContext b' := by
  refine sameContext_of_fields ?_ (hb.verified.trans hb'.verified.symm) (hb.matched.trans hb'.matched.symm) fun n => ?_
  · rw [hb.present, ha.present, hb'.present, ha'.present, BitVec.or_assoc, BitVec.or_assoc, BitVec.or_comm (1#6 <<< k)]
  · by_cases hk : k = n
    · subst hk
      rw [hb.other k hkl.symm, ha.own, hb'.own]
    · by_cases hl : l = n
      · subst hl
        rw [hb.own, hb'.other l hk, ha'.own]
      · rw [hb.other n hl, ha.other n hk, hb'.other n hk, ha'.other n hl]

end

/-! The set commands, each with its own staging. -/

/-- The six `SETx` (R201). -/
def setCommands : List Instr := [.setkek1, .setkek2, .seteipad, .seteopad, .setchal, .setresp]

theorem mem_setCommands {i : Instr} (hi : i.isSet = true) : i ∈ setCommands := by
  revert hi
  cases i <;> decide

/-- Two sets are of different fields. -/
theorem fieldNo_inj {i j : Instr} (hi : i.isSet = true) (hj : j.isSet = true) (h : fieldNo i = fieldNo j) : i = j := by
  have hall : ∀ i ∈ setCommands, ∀ j ∈ setCommands, fieldNo i = fieldNo j → i = j := by decide
  exact hall i (mem_setCommands hi) j (mem_setCommands hj) h

/-- What a set stores is a function of its operand (R201). -/
theorem field_effect_congr {i : Instr} (hi : i.isSet = true) {s s' : State} {x : Operand i} (hx : readOperand s i = .ok x) :
    (effect s i x).field (fieldNo i) = (effect s' i x).field (fieldNo i) := by
  have whole {n : Nat} (a b : Buf n) {f : List Byte} (hf : f.length = n) : (a.put 0 f).bytes = (b.put 0 f).bytes := by
    rw [Buf.put_full_eq_put_full a b hf]
  cases i with
  | setkek1 | setkek2 | seteipad | seteopad | setresp => exact whole _ _ (length_of_stagedField hx (by decide))
  | setchal =>
    have hchal := chal_storeChallenge_congr (s := s) (s' := s') (length_of_dataOperand (dataOperand_of_setchal hx).1).2
    exact congrArg (fun c : Buf 256 => x.2.lo :: x.2.hi :: c.bytes) hchal
  | _ => cases hi

/-- A set sees of the state its own staging only (R201). -/
theorem readOperand_staged {i : Instr} (hi : i.isSet = true) (s : State) (d : Buf 256) (m : Len16) :
    readOperand (s.staged d m) i = readOperand (State.reset.staged d m) i := by
  cases i with
  | setkek1 | setkek2 | seteipad | seteopad | setresp | setchal => rfl
  | _ => cases hi

/-- A set from its own staging: it records an error and leaves the context, or sets its field to a value; which of the two, and
the value, depends on the staging alone. -/
theorem exec_set_staged {i : Instr} (hi : i.isSet = true) (d : Buf 256) (m : Len16) :
    (∀ s t : State, exec i (s.staged d m) = .next t → t.errcode ≠ .ok ∧ t.SameContext s) ∨
    (∃ v, ∀ s t : State, exec i (s.staged d m) = .next t → SetsField (fieldNo i) v s t) := by
  have hne := ne_clrctx_of_isSet hi
  cases hop : readOperand (State.reset.staged d m) i with
  | error e =>
    refine .inl fun s t h => ?_
    rw [exec_eq_perform, readOperand_staged hi, hop] at h
    rw [raise_eq_next h]
    exact ⟨e.code_ne_ok, sameContext_refl s⟩
  | ok x =>
    refine .inr ⟨(effect State.reset i x).field (fieldNo i), fun s t h => ?_⟩
    have hx : readOperand (s.staged d m) i = .ok x := (readOperand_staged hi s d m).trans hop
    obtain ⟨hverified, hmatched⟩ := verdict_effect_set hi (s.staged d m) x
    rw [exec_eq_perform, hx] at h
    rw [finish_eq_next h]
    exact ⟨present_effect hne _ x, hverified, hmatched, field_effect_congr hi hx, fun n hn => field_effect hne _ x hn⟩

/-- Settles O41: by whether each of the two stagings is taken; one that is not leaves the context to the other. -/
theorem setsAreIndependent : Obligations.SetsAreIndependent := by
  intro i j s d e m n hi hj
  obtain ⟨a, ha⟩ := exec_next i (s.staged d m)
  obtain ⟨b, hb⟩ := exec_next j (a.staged e n)
  obtain ⟨a', ha'⟩ := exec_next j (s.staged e n)
  obtain ⟨b', hb'⟩ := exec_next i (a'.staged d m)
  refine ⟨a, b, a', b', ha, hb, ha', hb', ?_⟩
  obtain hfirst | ⟨v, hfirst⟩ := exec_set_staged hi d m <;> obtain hsecond | ⟨w, hsecond⟩ := exec_set_staged hj e n
  · obtain ⟨-, hsa⟩ := hfirst s a ha
    obtain ⟨herr, hab⟩ := hsecond a b hb
    obtain ⟨-, hsa'⟩ := hsecond s a' ha'
    obtain ⟨-, hab'⟩ := hfirst a' b' hb'
    have hb := sameContext_trans hab hsa
    have hb' := sameContext_trans hab' hsa'
    exact ⟨fun _ => sameContext_trans hb (sameContext_symm hb'), fun _ hok => absurd hok herr⟩
  · obtain ⟨-, hsa⟩ := hfirst s a ha
    obtain ⟨-, hab'⟩ := hfirst a' b' hb'
    have hset := (hsecond a b hb).congr (hsecond s a' ha') hsa
    exact ⟨fun _ => sameContext_trans hset (sameContext_symm hab'), fun _ _ => hset⟩
  · obtain ⟨herr, hab⟩ := hsecond a b hb
    obtain ⟨-, hsa'⟩ := hsecond s a' ha'
    have hset := (hfirst s a ha).congr (hfirst a' b' hb') (sameContext_symm hsa')
    exact ⟨fun _ => sameContext_trans hab hset, fun _ hok => absurd hok herr⟩
  · refine ⟨fun hij => ?_, fun hij _ => ?_⟩
    · exact SetsField.comm (fun h => hij (fieldNo_inj hi hj h)) (hfirst s a ha) (hsecond a b hb) (hsecond s a' ha')
        (hfirst a' b' hb')
    · subst hij
      exact ((hfirst s a ha).trans (hsecond a b hb)).congr (hsecond s a' ha') (sameContext_refl s)

end Sys2Proof.Machine
end

section
/-! PROOFS. The host's statements with no turn decided (30_encoding.md section 4): reads by the map (R62, R70), `WRLEN`, `WRBUF`
and `RUN` (R102). -/

namespace Sys2Proof.Machine

/-! Reads (R62). -/

/-- Settles O48: each address of the statement is the address of a register's byte. -/
theorem idleReadsFollowTheMap : Obligations.IdleReadsFollowTheMap := by
  intro s i hb
  have read (r : Reg) {j : Nat} (hj : j < r.size) := memRead_addr_idle hb r hj
  refine ⟨fun hi => ?_, fun hi => ?_, fun hi => ?_, fun hi => ?_, read .cmd Nat.one_pos, read .errcode Nat.one_pos, ?_, ?_,
    read .seclen Nat.one_pos, read .keylenLo Nat.one_pos, read .keylenHi Nat.one_pos, read .datalenLo Nat.one_pos,
    read .datalenHi Nat.one_pos, read .msglenLo Nat.one_pos, read .msglenHi Nat.one_pos, read .challenLo Nat.one_pos,
    read .challenHi Nat.one_pos⟩
  · exact ⟨read .secret hi, read .pkey hi, read .ipad hi, read .opad hi, read .kpdiag hi, read .eipad hi, read .eopad hi⟩
  · exact ⟨read .inner hi, read .digest hi, read .expresp hi⟩
  · exact ⟨read .kekh1 hi, read .kekh2 hi⟩
  · exact ⟨read .key hi, read .data hi, read .msg hi, read .chal hi⟩
  · have hmissing : memRead 0x003 s = s.missing.zeroExtend 8 := read .missing Nat.one_pos
    rw [hmissing, BitVec.toNat_setWidth_of_le (by decide)]
  · have hpresent : memRead 0x004 s = s.present.zeroExtend 8 := read .present Nat.one_pos
    rw [hpresent, BitVec.toNat_setWidth_of_le (by decide)]

/-! One step of the host with no turn decided (log 2). -/

section
variable {s : State} {a : Addr} {v : Byte} {rest : List Access}

theorem popTurn_of_undecided (ht : s.turns = []) : s.popTurn = s := by
  have htail : s.turns.tail = s.turns := by rw [ht]; rfl
  rw [State.popTurn, htail]

theorem mover_of_undecided (ht : s.turns = []) : s.mover = if s.busy then .engine else .host := by
  rw [State.mover, ht]

theorem step_undecided_idle (hb : s.busy = false) (ht : s.turns = []) : step s = .next s.hostAccess := by
  rw [step_of_host (by rw [mover_of_undecided ht, hb]; rfl), popTurn_of_undecided ht]

theorem step_undecided_busy (hb : s.busy = true) (ht : s.turns = []) : step s = engineStep s := by
  rw [step_of_engine hb (by rw [mover_of_undecided ht, hb]; rfl), popTurn_of_undecided ht]

/-- `STATUS` shows `BUSY` in bit 0, busy or not (R22, R65). -/
theorem memRead_status_bit0 (s : State) : (memRead (Reg.status.addr 0) s).getLsbD 0 = s.busy := by
  cases hb : s.busy with
  | true =>
    rw [memRead_status_busy hb, State.busyStatus, getLsbD_packStatus]
    rfl
  | false =>
    rw [memRead_addr_idle hb .status Nat.one_pos, State.regByte, State.status, getLsbD_packStatus, hb]
    rfl

theorem hostAccess_wr (hp : s.program = .wr a v :: rest) : s.hostAccess = memWrite a v { s with program := rest } := by
  rw [State.hostAccess, hp]

theorem hostAccess_poll_idle (hp : s.program = .poll :: rest) (hb : s.busy = false) :
    s.hostAccess = { s with program := rest }.recordRead (Reg.status.addr 0) := by
  rw [State.hostAccess, hp]
  exact if_neg (by rw [memRead_status_bit0, hb]; decide)

/-- One link of a chain of steps whose end is known. -/
theorem runSteps_link {t u : State} {n : Nat} (h : step s = .next t) (hrest : runSteps n t = .next u) :
    runSteps (n + 1) s = .next u :=
  (runSteps_succ h n).trans hrest

/-- The host's program is no register of the block. -/
theorem writeReg_withProgram (s : State) (p : List Access) (r : Reg) (i : Nat) (v : Byte) :
    { s with program := p }.writeReg r i v = { s.writeReg r i v with program := p } := by
  cases r <;> rfl

/-- A write to a read-write register other than `CMD`, in front of the rest of the program, takes one step. -/
theorem runSteps_write_link (hb : s.busy = false) (ht : s.turns = []) {r : Reg} (hw : r.writable = true) (hc : r ≠ .cmd)
    {i n : Nat} (hi : i < r.size) {t : State} (hrest : runSteps n { s.writeReg r i v with program := rest } = .next t) :
    runSteps (n + 1) { s with program := .wr (r.addr i) v :: rest } = .next t := by
  refine runSteps_link (t := { s.writeReg r i v with program := rest }) ?_ hrest
  rw [step_undecided_idle (s := { s with program := .wr (r.addr i) v :: rest }) hb ht, hostAccess_wr rfl,
    memWrite_addr_idle (s := { s with program := rest }) hb hw hc hi, writeReg_withProgram]

end

/-! `WRLEN` (R33, R102). -/

/-- The bytes that `WRLEN` writes (R102). -/
def lenOf (n : Nat) : Len16 := ⟨BitVec.ofNat 8 (n % 256), BitVec.ofNat 8 (n / 256)⟩

theorem lenOf_val {n : Nat} (h : n < 65536) : (lenOf n).val = n := by
  simp only [Len16.val, lenOf, BitVec.toNat_ofNat]
  omega

/-- Two writes to one-byte registers, and nothing more. -/
theorem run_two_writes {s : State} (hb : s.busy = false) (ht : s.turns = []) {p q : Reg} (hp : p.writable = true ∧ p ≠ .cmd)
    (hq : q.writable = true ∧ q ≠ .cmd) (hp0 : 0 < p.size) (hq0 : 0 < q.size) (v w : Byte) :
    runSteps 2 { s with program := .wr (p.addr 0) v :: .wr (q.addr 0) w :: s.program } =
      .next { (s.writeReg p 0 v).writeReg q 0 w with program := s.program } :=
  runSteps_write_link hb ht hp.1 hp.2 hp0 <|
    runSteps_write_link ((writeReg_busy ..).trans hb) ((writeReg_turns ..).trans ht) hq.1 hq.2 hq0 (runSteps_zero _)

/-- Settles O55: the two writes are the bytes of `n` to the two halves of one register. -/
theorem lengthRegisters : Obligations.LengthRegisters := by
  refine ⟨fun _ => rfl, fun s n hb ht hn => ⟨⟨{ s with keylen := lenOf n }, ?keylen, lenOf_val hn, rfl⟩,
    ⟨{ s with datalen := lenOf n }, ?datalen, lenOf_val hn, rfl⟩, ⟨{ s with msglen := lenOf n }, ?msglen, lenOf_val hn, rfl⟩⟩⟩
  case keylen =>
    exact run_two_writes (p := .keylenLo) (q := .keylenHi) hb ht (by decide) (by decide) (by decide) (by decide) _ _
  case datalen =>
    exact run_two_writes (p := .datalenLo) (q := .datalenHi) hb ht (by decide) (by decide) (by decide) (by decide) _ _
  case msglen =>
    exact run_two_writes (p := .msglenLo) (q := .msglenHi) hb ht (by decide) (by decide) (by decide) (by decide) _ _

/-! `WRBUF` (R102). -/

/-- The bytes written to a register, one after the other from an offset on. -/
def storeBytes (r : Reg) : Nat → List Byte → State → State
  | _, [], s => s
  | i, b :: bs, s => storeBytes r (i + 1) bs (s.writeReg r i b)

theorem storeBytes_busy (r : Reg) (bs : List Byte) (i : Nat) (s : State) : (storeBytes r i bs s).busy = s.busy := by
  induction bs generalizing i s with
  | nil => rfl
  | cons b bs ih => rw [storeBytes, ih, writeReg_busy]

section
variable {r : Reg} (hw : r.writable = true) (hc : r ≠ .cmd)
include hw hc

/-- `n` writes take `n` steps. -/
theorem run_writeBytes (bs : List Byte) {i : Nat} (hi : i + bs.length ≤ r.size) {s : State} (hb : s.busy = false)
    (ht : s.turns = []) (rest : List Access) :
    runSteps bs.length { s with program := writeBytes r i bs ++ rest } =
      .next { storeBytes r i bs s with program := rest } := by
  induction bs generalizing i s with
  | nil => rfl
  | cons b bs ih =>
    simp only [List.length_cons] at hi
    exact runSteps_write_link hb ht hw hc (by omega)
      (ih (by omega) ((writeReg_busy ..).trans hb) ((writeReg_turns ..).trans ht))

/-- The bytes stand at their addresses, and no other address changes (R63). -/
theorem byteAt_storeBytes (bs : List Byte) {i : Nat} (hi : i + bs.length ≤ r.size) (s : State) :
    (∀ k < bs.length, (storeBytes r i bs s).byteAt (r.addr (i + k)) = bs.getD k 0) ∧
    ∀ a, (∀ k < bs.length, a ≠ r.addr (i + k)) → (storeBytes r i bs s).byteAt a = s.byteAt a := by
  induction bs generalizing i s with
  | nil => exact ⟨nofun, fun _ _ => rfl⟩
  | cons b bs ih =>
    simp only [List.length_cons] at hi ⊢
    obtain ⟨hin, hout⟩ := ih (i := i + 1) (by omega) (s.writeReg r i b)
    have hnext (k : Nat) : i + 1 + k = i + (k + 1) := by omega
    simp only [hnext] at hin hout
    refine ⟨fun k hk => ?_, fun a ha => ?_⟩
    · cases k with
      | zero =>
        have hfresh (k : Nat) (hk : k < bs.length) : r.addr (i + 0) ≠ r.addr (i + (k + 1)) := by
          rw [ne_eq, addr_eq_addr_iff (by omega) (by omega)]
          omega
        rw [storeBytes, hout _ hfresh, byteAt_writeReg s b hw hc (by omega)]
        exact if_pos rfl
      | succ k => exact hin k (by omega)
    · rw [storeBytes, hout a fun k hk => ha (k + 1) (by omega), byteAt_writeReg s b hw hc (by omega)]
      exact if_neg (ha 0 (by omega))

end

/-- Settles O56: the statement is one write for each byte, to a read-write register other than `CMD`. -/
theorem wrbufStoresBytes : Obligations.WrbufStoresBytes := by
  intro s r bs hb ht hwf
  obtain ⟨⟨hbuffer, hw⟩, hlen⟩ : (r.isBuffer = true ∧ r.writable = true) ∧ bs.length ≤ r.size := by
    simpa [HostStmt.wellFormed] using hwf
  have hc : r ≠ .cmd := by
    rintro rfl
    exact absurd hbuffer (by decide)
  have hle : 0 + bs.length ≤ r.size := by omega
  have hprogram : s.withProgram [.wrbuf r bs] = { s with program := writeBytes r 0 bs ++ s.program } := by
    simp [State.withProgram, expand, expandStmt]
  obtain ⟨hin, hout⟩ := byteAt_storeBytes hw hc bs hle s
  have hbusy : (storeBytes r 0 bs s).busy = false := (storeBytes_busy r bs 0 s).trans hb
  have hread (a : Addr) : memRead a { storeBytes r 0 bs s with program := s.program } = (storeBytes r 0 bs s).byteAt a := by
    rw [memRead_idle (s := { storeBytes r 0 bs s with program := s.program }) hbusy]
    rfl
  simp only [Nat.zero_add] at hin hout
  refine ⟨_, (congrArg _ hprogram).trans (run_writeBytes hw hc bs hle hb ht s.program), rfl, hbusy, fun i hi => ?_,
    fun a ha => ?_⟩
  · rw [hread, hin i hi]
  · rw [hread, hout a ha, memRead_idle hb]

/-! `RUN` (R102). -/

theorem readOperand_block (s : State) (i : Instr) : readOperand s.block i = readOperand s i := by cases i <;> rfl

theorem effect_block (s : State) (i : Instr) (x : Operand i) : effect s.block i x = (effect s i x).block := by
  cases i <;> rfl

/-- A command does to the block what it does, whatever stands outside (R59). -/
theorem exec_block (i : Instr) (s : State) : ∃ t, exec i s = .next t ∧ exec i s.block = .next t.block :=
  exec_commutes (readOperand_block s i) (effect_block s i) fun _ _ _ => rfl

theorem block_of_exec {i : Instr} {s s' t t' : State} (h : s.block = s'.block) (ht : exec i s = .next t)
    (ht' : exec i s' = .next t') : t.block = t'.block := by
  obtain ⟨u, hu, hblock⟩ := exec_block i s
  obtain ⟨u', hu', hblock'⟩ := exec_block i s'
  cases hu.symm.trans ht
  cases hu'.symm.trans ht'
  rw [h, hblock'] at hblock
  exact (Host.Outcome.next.inj hblock).symm

/-- A command leaves what stands outside the block, and `WRBUSY`. -/
theorem outside_of_exec {i : Instr} {s t : State} (h : exec i s = .next t) :
    t.program = s.program ∧ t.turns = s.turns ∧ t.wrbusy = s.wrbusy := by
  obtain ⟨-, -, hwrbusy, hprogram, hturns, -⟩ := frameByAddress i s t h
  exact ⟨hprogram, hturns, hwrbusy⟩

/-- The state right after a command was accepted, with the accesses that the host still has to perform (R91). -/
def State.accepted (s : State) (code : Byte) (rest : List Access) : State := { s.accept code with program := rest }

/-- With no turn decided: the host's write to `CMD`. -/
theorem step_cmd_undecided {s : State} (hb : s.busy = false) (ht : s.turns = []) (code : Byte) (rest : List Access) :
    step { s with program := .wr (Reg.cmd.addr 0) code :: rest } = .next (s.accepted code rest) := by
  rw [step_undecided_idle (s := { s with program := .wr (Reg.cmd.addr 0) code :: rest }) hb ht, hostAccess_wr rfl,
    memWrite_idle (s := { s with program := rest }) hb]
  rfl

/-- With no turn decided: the engine performs the command at once. -/
theorem step_accepted_undecided {s : State} (ht : s.turns = []) (i : Instr) (rest : List Access) :
    step (s.accepted (encode i) rest) = exec i (s.accepted (encode i) rest) := by
  rw [step_undecided_busy (s := s.accepted (encode i) rest) rfl ht]
  exact engineStep_of_command (decode_encode i)

/-- Settles O57: acceptance, the engine's step at once, and a read of `STATUS` that finds `BUSY` = 0. -/
theorem runPerformsCommand : Obligations.RunPerformsCommand := by
  intro s i hb ht
  obtain ⟨t, hexec⟩ := exec_next i { s with cmd := encode i, busy := true, done := false }
  obtain ⟨v, hv, hbusy, -⟩ := (exec_endsWith i (s.accepted (encode i) (.poll :: s.program))).exists_next
  obtain ⟨hprogram, hturns, -⟩ := outside_of_exec hv
  have hpoll : step v = .next ({ v with program := s.program }.recordRead (Reg.status.addr 0)) := by
    rw [step_undecided_idle hbusy (hturns.trans ht), hostAccess_poll_idle hprogram hbusy]
  have hblock : v.block = t.block := block_of_exec (by rfl) hv hexec
  exact ⟨t, _, hexec, runSteps_link (step_cmd_undecided hb ht (encode i) _) <|
    runSteps_link ((step_accepted_undecided ht i _).trans hv) <| runSteps_link hpoll <| runSteps_zero _, hblock, rfl⟩

end Sys2Proof.Machine
end

section
/-! PROOFS. Whole runs of a host program (70_reset_and_hazards.md, R266, R272): every run ends; and where the host waits after
every command, no write is lost and the end state is the same under every schedule. -/

namespace Sys2Proof.Machine

/-! What a step leaves of the program and the schedule. -/

theorem outside_of_engineStep {s t : State} (h : engineStep s = .next t) :
    t.program = s.program ∧ t.turns = s.turns ∧ t.wrbusy = s.wrbusy := by
  obtain ⟨i, -, hstep⟩ | ⟨c, -, hstep⟩ := engineStep_cases s
  · exact outside_of_exec (hstep.symm.trans h)
  · rw [raise_eq_next (hstep.symm.trans h)]
    exact ⟨rfl, rfl, rfl⟩

theorem busy_of_engineStep {s t : State} (h : engineStep s = .next t) : t.busy = false := by
  obtain ⟨u, hu, hbusy, -⟩ := (engineStep_endsWith s).exists_next
  cases hu.symm.trans h
  exact hbusy

theorem outside_of_memWrite (s : State) (a : Addr) (v : Byte) :
    (memWrite a v s).program = s.program ∧ (memWrite a v s).turns = s.turns := by
  cases hb : s.busy with
  | true =>
    rw [memWrite_busy hb]
    exact ⟨rfl, rfl⟩
  | false =>
    rw [memWrite_idle hb]
    obtain h | h | h | ⟨r, i, h⟩ := idleWrite_cases s a v <;> rw [h]
    · exact ⟨rfl, rfl⟩
    · exact ⟨rfl, rfl⟩
    · exact ⟨rfl, rfl⟩
    · exact ⟨writeReg_program s r i v, writeReg_turns s r i v⟩

theorem turns_of_hostAccess (s : State) : s.hostAccess.turns = s.turns := by
  obtain ⟨-, h⟩ | ⟨a, rest, -, h⟩ | ⟨a, v, rest, -, h⟩ | ⟨rest, -, -, h⟩ | ⟨rest, -, -, h⟩ := hostAccess_cases s <;>
    rw [h]
  · rfl
  · exact (outside_of_memWrite _ a v).2
  · rfl
  · rfl

/-- Every step uses up one turn of those decided. -/
theorem turns_of_step {s t : State} (h : step s = .next t) : t.turns = s.turns.tail := by
  obtain ⟨-, rfl⟩ | ⟨-, -, hengine⟩ | ⟨-, -, rfl⟩ | ⟨-, rfl⟩ := step_cases h
  · exact turns_of_hostAccess _
  · exact (outside_of_engineStep hengine).2.1
  · rfl
  · rfl

/-! Every run ends (R272). -/

/-- While `BUSY` = 0 the host gets one access further, also with a `WAIT`. -/
theorem program_of_hostAccess_idle {s : State} {x : Access} {rest : List Access} (hb : s.busy = false)
    (hp : s.program = x :: rest) : s.hostAccess.program = rest := by
  cases x with
  | rd a => rw [State.hostAccess, hp]; rfl
  | wr a v =>
    rw [hostAccess_wr hp]
    exact (outside_of_memWrite _ a v).1
  | poll => rw [hostAccess_poll_idle hp hb]; rfl

/-- With no turn decided each step makes the run shorter: an engine step ends the pending command, which was an access
before. -/
theorem run_undecided_ends (n : Nat) (s : State) (ht : s.turns = []) (hn : 2 * s.program.length + s.busy.toNat ≤ n) :
    ∃ k t, runSteps k s = .next t ∧ t.ended := by
  induction n generalizing s with
  | zero =>
    have hp : s.program = [] := List.eq_nil_of_length_eq_zero (by omega)
    have hb : s.busy = false := by cases h : s.busy <;> simp [h] at hn ⊢
    exact ⟨0, s, rfl, hp, hb⟩
  | succ n ih =>
    have then_ends {t : State} (h : step s = .next t) (hle : 2 * t.program.length + t.busy.toNat ≤ n) :
        ∃ k t, runSteps k s = .next t ∧ t.ended := by
      obtain ⟨k, u, hrun, hend⟩ := ih t (by rw [turns_of_step h, ht]; rfl) hle
      exact ⟨k + 1, u, runSteps_link h hrun, hend⟩
    cases hb : s.busy with
    | true =>
      obtain ⟨t, h⟩ := engineStep_next s
      refine then_ends ((step_undecided_busy hb ht).trans h) ?_
      rw [(outside_of_engineStep h).1, busy_of_engineStep h]
      simp only [hb, Bool.toNat_true, Bool.toNat_false] at hn ⊢
      omega
    | false =>
      cases hp : s.program with
      | nil => exact ⟨0, s, rfl, hp, hb⟩
      | cons x rest =>
        refine then_ends (step_undecided_idle hb ht) ?_
        have hbusy := s.hostAccess.busy.toNat_le
        rw [program_of_hostAccess_idle hb hp]
        simp only [hp, List.length_cons] at hn
        omega

/-- Settles O58: after the turns decided so far none is left to come, and then every step makes the run shorter. -/
theorem everyRunEnds : Obligations.EveryRunEnds := by
  intro s
  induction hts : s.turns generalizing s with
  | nil => exact run_undecided_ends _ s hts le_rfl
  | cons t ts ih =>
    obtain ⟨u, h⟩ := stepAlwaysNext s
    obtain ⟨k, v, hrun, hend⟩ := ih u (by rw [turns_of_step h, hts]; rfl)
    exact ⟨k + 1, v, runSteps_link h hrun, hend⟩

/-! A host that waits after every command (R266). -/

/-- Where a run stands in which the host waits after every command: while one is pending, the host is waiting or done. -/
structure State.Waits (s : State) : Prop where
  disciplined : disciplined s.program = true
  pending : s.busy = true → s.program = [] ∨ ∃ rest, s.program = .poll :: rest
  noReset : .reset ∉ s.turns

theorem disciplined_tail {x : Access} {rest : List Access} (h : disciplined (x :: rest) = true) : disciplined rest = true := by
  cases x with
  | rd a => exact h
  | poll => exact h
  | wr a v => exact ((Bool.and_eq_true _ _).mp h).2

/-- Behind a write to `CMD` stands a `WAIT`, or nothing (R266). -/
theorem wait_of_disciplined {v : Byte} {rest : List Access} (h : disciplined (.wr (Reg.cmd.addr 0) v :: rest) = true) :
    rest = [] ∨ ∃ rest', rest = .poll :: rest' := by
  cases rest with
  | nil => exact .inl rfl
  | cons x rest' =>
    cases x with
    | poll => exact .inr ⟨rest', rfl⟩
    | rd a => simp [disciplined] at h
    | wr a v => simp [disciplined] at h

/-- A write while `BUSY` = 0 starts a command only at `CMD` (R63, R91). -/
theorem busy_idleWrite {s : State} {a : Addr} (v : Byte) (ha : a ≠ Reg.cmd.addr 0) : (s.idleWrite a v).busy = s.busy := by
  unfold State.idleWrite
  split
  next i h =>
    obtain rfl : i = 0 := Nat.lt_one_iff.mp (locate_some h).2
    exact absurd (eq_addr_of_locate h) ha
  next => split <;> rfl
  next => exact writeReg_busy ..
  next => rfl

theorem wrbusy_idleWrite {s : State} (a : Addr) (v : Byte) (h : s.wrbusy = false) : (s.idleWrite a v).wrbusy = false := by
  obtain hw | hw | hw | ⟨r, i, hw⟩ := idleWrite_cases s a v <;> rw [hw]
  · exact h
  · exact h
  · cases r <;> exact h

section
variable {s t : State} (hs : s.Waits)
include hs

/-- The inversion of a step of such a run: a turn that passes, a read, a `WAIT` that waits, an engine step, or while `BUSY` = 0
a `WAIT` that ends, or a write. -/
theorem step_cases_of_waits (h : step s = .next t) :
    t = s.popTurn ∨
    (∃ a rest, s.program = .rd a :: rest ∧ s.busy = false ∧ t = { s.popTurn with program := rest }.recordRead a) ∨
    (∃ rest, s.program = .poll :: rest ∧ s.busy = true ∧ t = s.popTurn.recordRead (Reg.status.addr 0)) ∨
    (∃ rest, s.program = .poll :: rest ∧ s.busy = false ∧
      t = { s.popTurn with program := rest }.recordRead (Reg.status.addr 0)) ∨
    (∃ a v rest, s.program = .wr a v :: rest ∧ s.busy = false ∧ t = { s.popTurn with program := rest }.idleWrite a v) ∨
    (s.busy = true ∧ engineStep s.popTurn = .next t) := by
  have idle {x : Access} {rest : List Access} (hp : s.program = x :: rest) (hx : x ≠ .poll) : s.busy = false := by
    refine Bool.eq_false_iff.mpr fun hb => ?_
    obtain h | ⟨rest', h⟩ := hs.pending hb <;> rw [hp] at h <;> cases h
    exact hx rfl
  obtain ⟨-, rfl⟩ | ⟨-, hb, hengine⟩ | ⟨-, -, rfl⟩ | ⟨hreset, -⟩ := step_cases h
  · obtain ⟨-, h⟩ | ⟨a, rest, hp, h⟩ | ⟨a, v, rest, hp, h⟩ | ⟨rest, hp, hbit, h⟩ | ⟨rest, hp, hbit, h⟩ :=
      hostAccess_cases s.popTurn
    · exact .inl h
    · exact .inr (.inl ⟨a, rest, hp, idle hp nofun, h⟩)
    · have hb := idle hp nofun
      rw [memWrite_idle (s := { s.popTurn with program := rest }) hb] at h
      exact .inr (.inr (.inr (.inr (.inl ⟨a, v, rest, hp, hb, h⟩))))
    · rw [memRead_status_bit0] at hbit
      exact .inr (.inr (.inl ⟨rest, hp, hbit, h⟩))
    · rw [memRead_status_bit0] at hbit
      exact .inr (.inr (.inr (.inl ⟨rest, hp, hbit, h⟩)))
  · exact .inr (.inr (.inr (.inr (.inr ⟨hb, hengine⟩))))
  · exact .inl rfl
  · refine absurd ?_ hs.noReset
    rw [State.mover] at hreset
    split at hreset
    next t ts hts => rw [hts, hreset]; exact List.mem_cons_self
    next => split at hreset <;> cases hreset

/-- Such a run goes on so (R266). -/
theorem waits_of_step (h : step s = .next t) : t.Waits := by
  have hturns : .reset ∉ t.turns := by
    rw [turns_of_step h]
    exact fun hm => hs.noReset (List.mem_of_mem_tail hm)
  have rest_disciplined {x : Access} {rest : List Access} (hp : s.program = x :: rest) : disciplined rest = true :=
    disciplined_tail (hp ▸ hs.disciplined)
  obtain rfl | ⟨a, rest, hp, hb, rfl⟩ | ⟨rest, hp, hb, rfl⟩ | ⟨rest, hp, hb, rfl⟩ | ⟨a, v, rest, hp, hb, rfl⟩ |
    ⟨hb, hengine⟩ := step_cases_of_waits hs h
  · exact ⟨hs.disciplined, hs.pending, hturns⟩
  · exact ⟨rest_disciplined hp, fun hbusy => absurd (hb.symm.trans hbusy) nofun, hturns⟩
  · exact ⟨hs.disciplined, hs.pending, hturns⟩
  · exact ⟨rest_disciplined hp, fun hbusy => absurd (hb.symm.trans hbusy) nofun, hturns⟩
  · have hprogram : ({ s.popTurn with program := rest }.idleWrite a v).program = rest := by
      rw [← memWrite_idle (s := { s.popTurn with program := rest }) hb]
      exact (outside_of_memWrite _ a v).1
    refine ⟨by rw [hprogram]; exact rest_disciplined hp, fun hbusy => ?_, hturns⟩
    by_cases ha : a = Reg.cmd.addr 0
    · rw [hprogram]
      subst ha
      exact wait_of_disciplined (hp ▸ hs.disciplined)
    · rw [busy_idleWrite v ha] at hbusy
      exact absurd (hb.symm.trans hbusy) nofun
  · obtain ⟨hprogram, -⟩ := outside_of_engineStep hengine
    refine ⟨by rw [hprogram]; exact hs.disciplined, fun hbusy => ?_, hturns⟩
    exact absurd ((busy_of_engineStep hengine).symm.trans hbusy) nofun

/-- No access of such a run is a write while `BUSY` = 1 (R64 b, R266). -/
theorem wrbusy_of_step (hw : s.wrbusy = false) (h : step s = .next t) : t.wrbusy = false := by
  obtain rfl | ⟨a, rest, -, -, rfl⟩ | ⟨rest, -, -, rfl⟩ | ⟨rest, -, -, rfl⟩ | ⟨a, v, rest, -, -, rfl⟩ | ⟨-, hengine⟩ :=
    step_cases_of_waits hs h
  · exact hw
  · exact hw
  · exact hw
  · exact hw
  · exact wrbusy_idleWrite (s := { s.popTurn with program := rest }) a v hw
  · obtain ⟨-, -, hkept⟩ := outside_of_engineStep hengine
    exact hkept.trans hw

end

/-- What every step keeps holds at the end of a run. -/
theorem runSteps_keeps {P : State → Prop} (hstep : ∀ s t, P s → step s = .next t → P t) {s t : State} {n : Nat} (hs : P s)
    (h : runSteps n s = .next t) : P t := by
  induction n generalizing s with
  | zero =>
    cases h
    exact hs
  | succ n ih =>
    obtain ⟨u, hu⟩ := stepAlwaysNext s
    exact ih (hstep s u hs hu) ((runSteps_succ hu n).symm.trans h)

theorem waits_of_idle {s : State} (hb : s.busy = false) (hd : disciplined s.program = true) (hr : Turn.reset ∉ s.turns) :
    s.Waits :=
  ⟨hd, fun hbusy => absurd (hb.symm.trans hbusy) nofun, hr⟩

/-- Settles O59: a run in which the host waits goes on so, and none of its steps sets `WRBUSY`. -/
theorem disciplinedLosesNoWrite : Obligations.DisciplinedLosesNoWrite := by
  intro s t n hb hw hd hr hrun
  have hkeeps (u v : State) (hu : u.Waits ∧ u.wrbusy = false) (h : step u = .next v) : v.Waits ∧ v.wrbusy = false :=
    ⟨waits_of_step hu.1 h, wrbusy_of_step hu.1 hu.2 h⟩
  exact (runSteps_keeps hkeeps ⟨waits_of_idle hb hd hr, hw⟩ hrun).2

/-! The end of such a run is a function of the program and the block (R272). -/

/-- The pending command, if there is one, performed. -/
def settle (s : State) : State :=
  if s.busy then
    match engineStep s with
    | .next t => t
    | .fault _ | .refused _ => s
  else s

/-- The block after the accesses of a program when every `WAIT`, and the end, finds the pending command performed. -/
def endOf : List Access → State → State
  | [], s => settle s
  | .rd _ :: rest, s => endOf rest s
  | .wr a v :: rest, s => endOf rest (memWrite a v s)
  | .poll :: rest, s => endOf rest (settle s)

theorem settle_idle {s : State} (hb : s.busy = false) : settle s = s := by
  rw [settle, hb]
  rfl

theorem settle_engineStep {s t : State} (hb : s.busy = true) (h : engineStep s = .next t) : settle s = t := by
  rw [settle, hb, h]
  rfl

/-- Where the host waits or is done, the engine step makes no difference to the end. -/
theorem endOf_settle {p : List Access} (hp : p = [] ∨ ∃ rest, p = .poll :: rest) {s t : State} (hb : s.busy = true)
    (h : engineStep s = .next t) : endOf p t = endOf p s := by
  obtain rfl | ⟨rest, rfl⟩ := hp <;>
    rw [endOf, endOf, settle_engineStep hb h, settle_idle (busy_of_engineStep h)]

theorem engineStep_block {s t : State} (h : engineStep s = .next t) : engineStep s.block = .next t.block := by
  obtain ⟨i, hdecode, hstep⟩ | ⟨c, hdecode, hstep⟩ := engineStep_cases s
  · obtain ⟨u, hu, hblock⟩ := exec_block i s
    cases (hu.symm.trans hstep.symm).trans h
    exact (engineStep_of_command (s := s.block) hdecode).trans hblock
  · rw [raise_eq_next (hstep.symm.trans h), engineStep_of_unknown (s := s.block) hdecode]
    rfl

theorem idleWrite_block (s : State) (a : Addr) (v : Byte) : s.block.idleWrite a v = (s.idleWrite a v).block := by
  rw [State.idleWrite, State.idleWrite]
  cases locate a with
  | none => rfl
  | some p =>
    obtain ⟨r, i⟩ := p
    cases r with
    | status =>
      dsimp only
      split <;> rfl
    | _ => rfl

theorem memWrite_block (s : State) (a : Addr) (v : Byte) : memWrite a v s.block = (memWrite a v s).block := by
  cases hb : s.busy with
  | true =>
    rw [memWrite_busy hb, memWrite_busy (s := s.block) hb]
    rfl
  | false => rw [memWrite_idle hb, memWrite_idle (s := s.block) hb, idleWrite_block]

/-- No step of a run in which the host waits changes its end. -/
theorem endOf_of_step {s t : State} (hs : s.Waits) (h : step s = .next t) :
    endOf t.program t.block = endOf s.program s.block := by
  obtain rfl | ⟨a, rest, hp, hb, rfl⟩ | ⟨rest, hp, hb, rfl⟩ | ⟨rest, hp, hb, rfl⟩ | ⟨a, v, rest, hp, hb, rfl⟩ |
    ⟨hb, hengine⟩ := step_cases_of_waits hs h
  · rfl
  · rw [hp]
    rfl
  · rfl
  · rw [hp, endOf, settle_idle (s := s.block) hb]
    rfl
  · rw [← memWrite_idle (s := { s.popTurn with program := rest }) hb, (outside_of_memWrite _ a v).1, ← memWrite_block, hp]
    rfl
  · rw [(outside_of_engineStep hengine).1]
    exact endOf_settle (s := s.popTurn.block) (hs.pending hb) hb (engineStep_block hengine)

/-- Settles O60: either run ends in `endOf` of the program and the block that both start from. -/
theorem scheduleDoesNotMatter : Obligations.ScheduleDoesNotMatter := by
  intro s a b ts us m n hb hd hts hus hrunA hendA hrunB hendB
  have hend (ws : List Turn) (hws : Turn.reset ∉ ws) (k : Nat) (u : State) (hrun : runSteps k { s with turns := ws } = .next u)
      (hu : u.ended) : u.block = endOf s.program s.block := by
    obtain ⟨-, h⟩ := runSteps_keeps (P := fun v => v.Waits ∧ endOf v.program v.block = endOf s.program s.block)
      (fun v w hv h => ⟨waits_of_step hv.1 h, (endOf_of_step hv.1 h).trans hv.2⟩)
      ⟨waits_of_idle (s := { s with turns := ws }) hb hd hws, rfl⟩ hrun
    rwa [hu.1, endOf, settle_idle (s := u.block) hu.2] at h
  rw [hend ts hts m a hrunA hendA, hend us hus n b hrunB hendB]

end Sys2Proof.Machine
end
